-- ==== Sys2Proof/Word.lean ====
section
/-! DEFINITION. The word types of the CZ2 and the names of its units (R9, R10). -/

namespace Sys2Proof

/-- One byte of memory, of a packet or of a record. -/
abbrev Byte := BitVec 8
/-- Face number F0 to F95: 12 × die + local index (R9). -/
abbrev FaceId := Fin 96
/-- Compute die D0 to D7 (R9). -/
abbrev DieId := Fin 8
/-- HBM stack M0 to M15; M(2d) and M(2d + 1) belong to die Dd (R9). -/
abbrev StackId := Fin 16
/-- Haul port H0 to H5, facing +X, −X, +Y, −Y, +Z, −Z (R9). -/
abbrev PortId := Fin 6
/-- Queue pair Q0 to Q63 (R315). -/
abbrev QueueId := Fin 64
/-- Fabric address: x in [4:0], y in [9:5], z in [14:10] (R268). -/
abbrev FAddr := BitVec 15
/-- Device address (R238). -/
abbrev DevAddr := BitVec 64
/-- Byte offset in a Face's own 128 MiB scratchpad (R99). -/
abbrev SpOff := BitVec 27
/-- Pit ID; 0 means no Pit (R280). -/
abbrev PitId := BitVec 12

/-- The die of a Face (R9). -/
def FaceId.die (f : FaceId) : DieId := ⟨f.val / 12, by omega⟩

end Sys2Proof
end

