-- ==== Sys2Proof/Syntax.lean ====
section
/-! DEFINITION. The commands of the CZ2 block: one constructor of `Instr` for each row of spec/opcode_table.json, with
the operands the manual gives that row. Instruction encodings inside a tick program are not fixed by the manual
(R389), so an instruction carries its operands as records: stream descriptors (R99), spall list descriptors (R117)
and the fields its own rule names. -/

namespace Sys2Proof

/-! ### Command packets (R318) -/

/-- The path on which a command packet arrives: a host queue (R315), the management Ethernet with the sender's
address and UDP port (R317), or class 1 of the fabric under stream service mode (R206). -/
inductive Path where
  | queue (q : QueueId)
  | mgmt (sender : BitVec 48)
  | fabric (src : FAddr)
  deriving DecidableEq, Repr

/-- A command packet but for its OPCODE, which the row names (R318). -/
structure CmdPacket where
  path   : Path
  ver    : Byte
  flags  : Byte
  tag    : BitVec 16
  pitCls : BitVec 16
  target : BitVec 64
  execAt : BitVec 64
  plen   : BitVec 32
  crc    : BitVec 32
  params : List Byte
  deriving DecidableEq, Repr

/-- What names an outstanding command: its path and its tag (R318: the tag is unique among them). -/
structure CmdKey where
  path : Path
  tag  : BitVec 16
  deriving DecidableEq, Repr

/-! ### Streams of the vector engine and the Bench (R99, R117) -/

/-- A stream descriptor (R99); `rsvd` holds its reserved bits: bytes 0–3 [31:27], byte 5 and byte 7. -/
structure StreamDesc where
  base    : SpOff
  fmt     : BitVec 4
  ver     : BitVec 4
  spallId : Byte
  cnt0    : BitVec 16
  cnt1    : BitVec 16
  cnt2    : BitVec 16
  cnt3    : BitVec 16
  str0    : BitVec 32
  str1    : BitVec 32
  str2    : BitVec 32
  str3    : BitVec 32
  rsvd    : BitVec 21
  deriving DecidableEq, Repr

/-- A spall list descriptor (R117); `rsvd` holds its reserved bits: bytes 0–3 and 4–7 [31:27], and bytes 17–31. -/
structure SpallDesc where
  pbase : SpOff
  tbase : SpOff
  units : BitVec 32
  pitch : BitVec 32
  scode : BitVec 3
  rows  : Bool
  ver   : BitVec 4
  rsvd  : BitVec 130
  deriving DecidableEq, Repr

/-- A stream, with the spall list that its SPALL_ID names in the loaded program's spall table: PROG_VERIFY's checks hold `spall`
against that table (R99, R117). -/
structure Stream where
  desc  : StreamDesc
  spall : Option SpallDesc
  deriving DecidableEq, Repr

/-- A read operand: a stream, or the head entry of the finished-tile queue with its TSW written to `tsw` (R106). A queue read has a
descriptor too, whose counts, FMT and SPALL_ID it uses and whose BASE and strides it does not (log entry 133). -/
inductive Src where
  | mem (st : Stream)
  | queue (tsw : SpOff) (st : Stream)
  deriving DecidableEq, Repr

/-- The mask action of R169. -/
inductive MaskAct where
  | zero
  | keep
  deriving DecidableEq, Repr

/-- A write operand, with the mask of R169 where one is named. -/
structure Dst where
  st   : Stream
  mask : Option (Stream × MaskAct)
  deriving DecidableEq, Repr

/-- The kept copy of a forward instruction (R157): a second write stream. The results form rows of `rowLen`, and the copy takes them
column by column; 1 keeps their order (log entry 134). -/
structure Kept where
  y      : Dst
  rowLen : Nat
  deriving DecidableEq, Repr

/-- POLICY and ESC_THRESH of an instruction that may write BP (R115). -/
structure BpEnc where
  maxalign : Bool
  esc      : Byte
  deriving DecidableEq, Repr

/-- A statistics block: its address, 0 for none (R115), and the STAT_ACC flag (R127, R128). -/
structure Stat where
  addr : SpOff
  acc  : Bool
  deriving DecidableEq, Repr

structure Vec1 where
  a    : Src
  y    : Dst
  cnt  : Option SpOff
  enc  : BpEnc
  kept : Option Kept
  deriving DecidableEq, Repr

structure Vec2 where
  a    : Src
  b    : Src
  y    : Dst
  cnt  : Option SpOff
  enc  : BpEnc
  sr   : Bool
  kept : Option Kept
  deriving DecidableEq, Repr

structure Vec3 where
  a    : Src
  b    : Src
  c    : Src
  y    : Dst
  cnt  : Option SpOff
  enc  : BpEnc
  sr   : Bool
  kept : Option Kept
  deriving DecidableEq, Repr

structure SelectOp where
  mask : Stream
  a    : Src
  b    : Src
  y    : Dst
  cnt  : Option SpOff
  deriving DecidableEq, Repr

structure ConvertOp where
  a    : Src
  y    : Dst
  cnt  : Option SpOff
  enc  : BpEnc
  sr   : Bool
  stat : Stat
  kept : Option Kept
  deriving DecidableEq, Repr

/-- QUANT (R122): rows along dimension 0; one 16-byte row record a row from `recs`. -/
structure QuantOp where
  a    : Src
  y    : Dst
  recs : SpOff
  asym : Bool
  esc  : Byte
  cnt  : Option SpOff
  stat : Stat
  deriving DecidableEq, Repr

/-- INT_FINISH (R125): an accumulator tile of `m` rows and `n` columns. `tsw` is the stored TSW's address for a tile in
the scratchpad; `w` addresses weight row e as its row index; `spallId` names the activation spall list and `unit0` is the first
row's unit in it; `qEsc` is the escape setting of the QUANT that wrote the row records, which PROG_VERIFY traces (R126, log
entry 135). -/
structure IntFinishOp where
  acc    : Src
  tsw    : SpOff
  m      : Nat
  n      : Nat
  recs   : SpOff
  colsum : Src
  zw     : Stream
  w      : Stream
  k      : Nat
  spallId : Byte
  spall  : Option SpallDesc
  unit0  : Nat
  passes : Nat
  y      : Dst
  enc    : BpEnc
  stat   : Stat
  cnt    : Option SpOff
  kept   : Option Kept
  qEsc   : Bool
  deriving DecidableEq, Repr

/-- SUM, with groups of dimension 0, or of dimensions 0 and 1 (R110). -/
structure SumOp where
  a    : Src
  y    : Dst
  two  : Bool
  cnt  : Option SpOff
  enc  : BpEnc
  deriving DecidableEq, Repr

/-- MAXR and MINR, with the second write stream of winner indices (R111). -/
structure RedOp where
  a    : Src
  y    : Dst
  idx  : Dst
  two  : Bool
  cnt  : Option SpOff
  deriving DecidableEq, Repr

structure CompressOp where
  a      : Src
  mask   : Stream
  y      : Dst
  countW : SpOff
  cnt    : Option SpOff
  deriving DecidableEq, Repr

structure ExpandOp where
  a     : Src
  mask  : Stream
  y     : Dst
  merge : Bool
  cnt   : Option SpOff
  deriving DecidableEq, Repr

/-- The operand pairs of R50. -/
inductive Pair where
  | posit8
  | posit16
  | posit32
  | bp8
  | bp16
  | int8
  | int4
  deriving DecidableEq, Repr

/-- QADD (R107). `aOf` and `bOf` are the pair and BASE of the drains that wrote the two operands' quires, as PROG_VERIFY traces them
through the program; `none` for quires from outside it (log entry 135). -/
structure QaddOp where
  a   : Stream
  b   : Stream
  y   : Dst
  cnt : Option SpOff
  aOf : Option (Pair × Int)
  bOf : Option (Pair × Int)
  deriving DecidableEq, Repr

structure TswTestOp where
  tsw : SpOff
  out : SpOff
  deriving DecidableEq, Repr

/-! ### Function unit and normaliser (R130, R165) -/

structure FnOp where
  a   : Src
  y   : Dst
  cnt : Option SpOff
  kept : Option Kept
  deriving DecidableEq, Repr

/-- The function an FN_GATE names: a built-in or a slot of the active bank (R149). -/
inductive FnSel where
  | exp2
  | log2
  | slot (i : Fin 8)
  deriving DecidableEq, Repr

structure GateOp where
  a   : Src
  g   : Src
  f   : FnSel
  y   : Dst
  cnt : Option SpOff
  kept : Option Kept
  deriving DecidableEq, Repr

structure Smax1Op where
  a    : Src
  mask : Option Stream
  recs : SpOff
  cnt  : Option SpOff
  deriving DecidableEq, Repr

structure Smax2Op where
  a    : Src
  mask : Option Stream
  recs : SpOff
  y    : Dst
  enc  : BpEnc
  cnt  : Option SpOff
  kept : Option Kept
  deriving DecidableEq, Repr

structure NormStatsOp where
  a    : Src
  recs : SpOff
  eps  : BitVec 32
  rms  : Bool
  cnt  : Option SpOff
  deriving DecidableEq, Repr

structure NormApplyOp where
  a     : Src
  recs  : SpOff
  gamma : Option Src
  beta  : Option Src
  y     : Dst
  enc   : BpEnc
  cnt   : Option SpOff
  kept  : Option Kept
  deriving DecidableEq, Repr

structure NormGrad1Op where
  x     : Src
  dy    : Src
  gamma : Src
  fwd   : Option SpOff
  recs  : SpOff
  eps   : BitVec 32
  rms   : Bool
  cnt   : Option SpOff
  deriving DecidableEq, Repr

structure NormGrad2Op where
  x     : Src
  dy    : Src
  gamma : Src
  recs  : SpOff
  y     : Dst
  dyx   : Option Dst
  cnt   : Option SpOff
  enc   : BpEnc
  deriving DecidableEq, Repr

structure SmaxGrad1Op where
  yv   : Src
  dy   : Src
  mask : Option Stream
  out  : SpOff
  cnt  : Option SpOff
  deriving DecidableEq, Repr

structure SmaxGrad2Op where
  yv   : Src
  dy   : Src
  mask : Option Stream
  d    : SpOff
  c    : BitVec 32
  y    : Dst
  cnt  : Option SpOff
  enc  : BpEnc
  deriving DecidableEq, Repr

/-! ### The Bench (R50, R80–R95) -/

/-- A quire set of a Face (R52): `false` is A, `true` is B. -/
abbrev QSet := Bool

/-- A forward or transposed read of one row (R83, R84). `row` is the row m; `k0` is the index, within the accumulation, of
the tile's first reduction element; `base` is BASE of a BP pair (R50). -/
structure BenchRead where
  set  : QSet
  pair : Pair
  row  : Nat
  k0   : Nat
  base : Int
  act  : Stream
  deriving DecidableEq, Repr

/-- A background load of a stationary tile image (R87, R88); `spall` serves the image's escaped BP elements (R56). -/
structure WeightLoadOp where
  pair  : Pair
  image : SpOff
  spallId : Byte
  spall : Option SpallDesc
  deriving DecidableEq, Repr

/-- The preload of an accumulation (R59). `of_` is the pair and BASE of the drain that wrote the raw quires, as PROG_VERIFY traces them
(R60, log entry 135). -/
inductive Preload where
  | zero
  | tensor (st : Stream)
  | raw (st : Stream) (of_ : Pair × Int)
  deriving DecidableEq, Repr

/-- The fused operation of a drain (R66). -/
inductive Fused where
  | none
  | add (t : Stream)
  | mul (t : Stream)
  deriving DecidableEq, Repr

/-- Where a drain puts its tile: the finished-tile queue, or, for a raw quire, scratchpad addresses of the tile and of its
TSW (R65, R73). -/
inductive DrainDst where
  | queue
  | raw (tile tsw : SpOff)
  deriving DecidableEq, Repr

/-- DRAIN (R65–R76). `rows` and `cols` give the drained output tile; `next` is the next preload of the set, whose pair, BASE
and direction follow. `unit0` is the spall unit of the tile's first block, and `unitStep` the units from one tile row to the next
(R67, R118). With `rows` 0 it drains nothing and only preloads: the first accumulation after LAUNCH (R59, R62, log entry 136). -/
structure DrainOp where
  set    : QSet
  pair   : Pair
  trans  : Bool
  base   : Int
  rows   : Nat
  cols   : Nat
  ofmt   : BitVec 4
  fused  : Fused
  mask   : Option (Stream × MaskAct)
  tag    : BitVec 16
  enc    : BpEnc
  spallId : Byte
  spall  : Option SpallDesc
  unit0  : Nat
  unitStep : Nat
  dst    : DrainDst
  next   : Preload
  nPair  : Pair
  nTrans : Bool
  nBase  : Int
  nRows  : Nat
  nCols  : Nat
  deriving DecidableEq, Repr

/-! ### Gangsaw (R179) -/

structure GsScanOp where
  a     : Stream
  x     : Stream
  b     : Stream
  c     : Stream
  y     : Dst
  len   : Nat
  g     : Nat
  span  : Nat
  rmap  : SpOff
  init  : SpOff
  zeroInit : Bool
  cin   : Option SpOff
  coff  : Nat
  cout  : Option SpOff
  ssw   : SpOff
  ch    : Nat
  deriving DecidableEq, Repr

/-! ### Movers, fabric sends and add groups (R217, R245, R252) -/

/-- A message expected in a landing buffer: source, tag and visibility tick (R217). -/
structure MsgKey where
  src : FAddr
  tag : BitVec 16
  vis : BitVec 64
  deriving DecidableEq, Repr

/-- A mover's transfer within device memory (R18, R239). -/
structure MoveOp where
  src   : DevAddr
  dst   : DevAddr
  bytes : Nat
  deriving DecidableEq, Repr

/-- A Face-to-fabric landing write (R217): destination Pit rank, source range, destination address, delay V. -/
structure SendOp where
  rank  : Nat
  src   : DevAddr
  dst   : DevAddr
  bytes : Nat
  vis   : Nat
  tag   : BitVec 16
  deriving DecidableEq, Repr

/-- The element formats of the memory-side adders (R251). -/
inductive AddFmt where
  | quire128
  | quire256
  | quire512
  | fragment
  | posit16
  | posit32
  deriving DecidableEq, Repr

/-- An add group's descriptor (R252). -/
structure GroupDesc where
  target : DevAddr
  count  : Nat
  fmt    : AddFmt
  n      : Nat
  stage  : DevAddr
  stageBytes : Nat
  vis    : Nat
  ver    : BitVec 4
  deriving DecidableEq, Repr

/-- A message that a Face's program reads (R217): the source's Pit rank, its tag, the address range it lands in, its delay V, and the
ticks that send it: those T with (T - LAUNCH) mod `every` = `phase` (log entry 149). -/
structure Expect where
  rank  : Nat
  tag   : BitVec 16
  addr  : DevAddr
  bytes : Nat
  vis   : Nat
  every : Nat
  phase : Nat
  deriving DecidableEq, Repr

/-- An add group that a Face's program reads, with the ticks that open it, as in `Expect` (R252, R253). -/
structure GroupUse where
  desc  : GroupDesc
  every : Nat
  phase : Nat
  deriving DecidableEq, Repr

/-- ATOMIC_ADD (R252): the Pit rank of the module that holds the target, the group, the source's tag and contribution. -/
structure AtomicOp where
  rank  : Nat
  group : GroupDesc
  tag   : BitVec 16
  src   : Stream
  deriving DecidableEq, Repr

/-- A contribution on arrival at an adder (R252): the element bytes and the elements marked poisoned. -/
structure Contribution where
  group  : GroupDesc
  opened : BitVec 64
  rank   : Nat
  tag    : BitVec 16
  data   : List Byte
  marks  : List Nat
  deriving DecidableEq, Repr

/-! ### Fabric (R262–R299) -/

/-- A halt notice (R220): its originator, cause and target tick; `relay` marks one that a twin passes to its partner (R234). The packet's
header names the Pit (R274). -/
structure HaltNotice where
  src    : FAddr
  cause  : BitVec 4
  target : BitVec 64
  relay  : Bool
  deriving DecidableEq, Repr

/-- An extension announcement (R223). -/
structure ExtAnn where
  src    : FAddr
  face   : BitVec 7
  rank   : Nat
  target : BitVec 64
  ext    : Nat
  relay  : Bool
  deriving DecidableEq, Repr

/-- What a twin's digest packet carries (R236): the module digest of a tick; after a halt, the 96 Face digests, of which a class-0 packet
holds one of four parts of 24 (R274; log entry 84); then the 16 region digests of one Face. -/
inductive TwinBody where
  | module (digest : BitVec 64)
  | faces (part : Nat) (digests : List (BitVec 64))
  | regions (face : FaceId) (digests : List (BitVec 64))
  deriving DecidableEq, Repr

structure TwinMsg where
  tick : BitVec 64
  body : TwinBody
  deriving DecidableEq, Repr

/-- What a packet carries whose body the manual does not lay out (R274; log entry 84): a halt notice, an extension announcement, a twin's
digests, or an add contribution. -/
inductive Load where
  | halt (n : HaltNotice)
  | ext (n : ExtAnn)
  | twin (m : TwinMsg)
  | add (c : Contribution)
  deriving DecidableEq, Repr

/-- A flit: control field and payload (R262); `load` is what the packet that it begins carries beside its bytes. -/
structure Flit where
  seq      : BitVec 12
  ack      : BitVec 12
  ackValid : Bool
  nak      : Bool
  cls      : BitVec 2
  vc       : Bool
  sop      : Bool
  eop      : Bool
  idle     : Bool
  poison   : BitVec 4
  crc      : BitVec 64
  payload  : List Byte
  load     : Option Load
  deriving DecidableEq, Repr

/-- A packet: the header of R274, its body, the poison marks of its 64-byte pieces, its virtual channel, and what it carries where its
body has no layout in the manual. -/
structure Packet where
  rtlVer : Byte
  cls    : BitVec 2
  bcast  : Bool
  sroute : Bool
  rsvd   : Bool
  pit    : PitId
  dst    : FAddr
  src    : FAddr
  kind   : Byte
  vis    : BitVec 4
  hops   : BitVec 6
  tag    : BitVec 16
  len    : BitVec 16
  tick   : BitVec 64
  addr   : BitVec 64
  body   : List Byte
  marks  : List Nat
  vc     : Bool
  load   : Option Load
  deriving DecidableEq, Repr

/-- What the exchange with another module tells of it, for TWIN_PAIR to compare (R234): its address, Pit and AID, whether its Pit is fast,
TICK_PERIOD.CURRENT, NOTICE, its Faces' program digests and states, its Pit's shape, and the hops between the two modules. -/
structure Peer where
  faddr   : FAddr
  pit     : PitId
  aid     : BitVec 64
  fast    : Bool
  tp      : BitVec 12
  notice  : Byte
  digests : List (BitVec 64)
  states  : List Nat
  shape   : Nat × Nat × Nat
  hops    : Nat
  deriving DecidableEq, Repr

/-- A received frame marker (R283): the sender's FRAME_COUNT, when it sent the marker, when it received this module's last
one, and, as R284 needs, the master the sender follows, its address and depth, all times in 1/64 ns; `arrived` is this
module's own clock at arrival. -/
structure Marker where
  frame    : BitVec 64
  sent     : Int
  partner  : Int
  arrived  : Int
  locked   : Bool
  depth    : BitVec 6
  master   : FAddr
  deriving DecidableEq, Repr

/-! ### Power, cooling, bring-up -/

/-- One reading of the module's sensors (R374, R377), binary32 patterns; `temps` holds sensors 0 to 29, `rope` says that the leak rope is
wet, and `leakIn` that another party asserts LEAK_N. -/
structure Readings where
  vMain : BitVec 32
  iMain : BitVec 32
  pAvg  : BitVec 32
  vStby : BitVec 32
  temps : List (BitVec 32)
  rope  : Bool
  leakIn : Bool
  deriving DecidableEq, Repr

/-- One Face's power-on BIST result (R342, R343). -/
structure PostResult where
  face     : FaceId
  groups   : BitVec 16
  logicBad : Bool
  bankBad  : Bool
  deriving DecidableEq, Repr

/-- The result of a BIST_RUN (R344, R345): per tested Face the groups found faulty and any failing logic or bank; for a
stack, a port or the hub die whether it passed; the duration in ms. -/
structure BistResult where
  faces : List PostResult
  pass  : Bool
  ms    : BitVec 32
  deriving DecidableEq, Repr

/-- How a remote export's record write ended (R202). -/
inductive ExportEnd where
  | landed
  | unreachable
  | refused
  | poisoned (first : DevAddr) (granules : BitVec 32)
  deriving DecidableEq, Repr

/-- A direct access to CSR space goes through BAR0 or the management chain (R314). -/
inductive CsrPath where
  | bar0
  | chain
  deriving DecidableEq, Repr

/-- A BAR4 access (R313). -/
inductive BarAcc where
  | read (n : Nat)
  | write (bytes : List Byte)
  deriving DecidableEq, Repr

/-- EPOCH_BEGIN: its packet, with the clock plans that the other members of the Pit would get (R26, R211). -/
structure EpochCmd where
  pk : CmdPacket
  plans : List (BitVec 2)
  deriving DecidableEq, Repr

/-- TWIN_PAIR: its packet, with what the partner answers of itself, if it answers (R234). -/
structure TwinCmd where
  pk : CmdPacket
  partner : Option Peer
  deriving DecidableEq, Repr

/-- A spall list as an instruction names it: its SPALL_ID and its entry of the program's spall table (R117). -/
structure NamedList where
  id : Byte
  desc : SpallDesc
  deriving DecidableEq, Repr

/-- The commands of the block: one constructor for each row of spec/opcode_table.json. -/
inductive Instr where
  | cfgRead (pk : CmdPacket)
  | cfgStage (pk : CmdPacket)
  | cfgCommit (pk : CmdPacket)
  | progLoad (pk : CmdPacket)
  | progVerify (pk : CmdPacket)
  | launch (pk : CmdPacket)
  | haltAt (pk : CmdPacket)
  | lastFaceStopped
  | epochBegin (c : EpochCmd)
  | epochClockLock
  | streamOpen (pk : CmdPacket)
  | streamChunk (pk : CmdPacket)
  | streamPause (pk : CmdPacket)
  | streamResume (pk : CmdPacket)
  | streamExport (pk : CmdPacket)
  | exportSnapshot (h : BitVec 16)
  | exportWriteDone (h : BitVec 16) (remote : ExportEnd)
  | streamImport (pk : CmdPacket)
  | streamClose (pk : CmdPacket)
  | streamQuery (pk : CmdPacket)
  | chunkComplete (h : BitVec 16) (carry outs : List Byte)
  | streamRecordLanding (src : FAddr) (pit : PitId) (tag : BitVec 16) (addr : DevAddr) (len : Nat)
  | collBucketDef (pk : CmdPacket)
  | collArm (pk : CmdPacket)
  | collQuery (pk : CmdPacket)
  | addingHop (bucket : BitVec 12) (half : Bool)
  | collPassEnd (bucket : BitVec 12)
  | collStepTimeout (bucket : BitVec 12)
  | tableLoad (pk : CmdPacket)
  | tableLoadDone (key : CmdKey) (failed : BitVec 96)
  | tableSwap (pk : CmdPacket)
  | tableQuery (pk : CmdPacket)
  | memCopy (pk : CmdPacket)
  | memFill (pk : CmdPacket)
  | memScrub (pk : CmdPacket)
  | memCommandDone (key : CmdKey)
  | memRetire (pk : CmdPacket)
  | hbmZeroingDone
  | readyQuery (pk : CmdPacket)
  | bistRun (pk : CmdPacket)
  | bistDone (key : CmdKey) (res : BistResult)
  | faceRetire (pk : CmdPacket)
  | fwPiece (pk : CmdPacket)
  | fwStatus (pk : CmdPacket)
  | fwConfirm (pk : CmdPacket)
  | fwRelayEnable (pk : CmdPacket)
  | twinPair (c : TwinCmd)
  | twinUnpair (pk : CmdPacket)
  | errRead (pk : CmdPacket)
  | errAck (pk : CmdPacket)
  | pitCreate (pk : CmdPacket)
  | pitDestroy (pk : CmdPacket)
  | pitScrubDone (bad : List DevAddr)
  | routeEpoch (pk : CmdPacket)
  | tickBoundary
  | faceProgramEnd (f : FaceId) (endCycle : Nat)
  | faceSlipLimit (f : FaceId)
  | faceStallEnd (f : FaceId)
  | odcPitUpdate (others : List (BitVec 32))
  | benchForwardRead (f : FaceId) (op : BenchRead)
  | benchTransposedRead (f : FaceId) (op : BenchRead)
  | weightLoad (f : FaceId) (op : WeightLoadOp)
  | weightSwap (f : FaceId)
  | drain (f : FaceId) (op : DrainOp)
  | finishedTileQueued (f : FaceId)
  | keeperMac (f : FaceId) (groups : Nat)
  | add (f : FaceId) (op : Vec2)
  | sub (f : FaceId) (op : Vec2)
  | mul (f : FaceId) (op : Vec2)
  | muladd (f : FaceId) (op : Vec3)
  | max (f : FaceId) (op : Vec2)
  | min (f : FaceId) (op : Vec2)
  | abs (f : FaceId) (op : Vec1)
  | neg (f : FaceId) (op : Vec1)
  | cmpEq (f : FaceId) (op : Vec2)
  | cmpLt (f : FaceId) (op : Vec2)
  | cmpLe (f : FaceId) (op : Vec2)
  | select (f : FaceId) (op : SelectOp)
  | div (f : FaceId) (op : Vec2)
  | sqrt (f : FaceId) (op : Vec1)
  | convert (f : FaceId) (op : ConvertOp)
  | quant (f : FaceId) (op : QuantOp)
  | intFinish (f : FaceId) (op : IntFinishOp)
  | sum (f : FaceId) (op : SumOp)
  | maxr (f : FaceId) (op : RedOp)
  | minr (f : FaceId) (op : RedOp)
  | compress (f : FaceId) (op : CompressOp)
  | expand (f : FaceId) (op : ExpandOp)
  | qadd (f : FaceId) (op : QaddOp)
  | tswTest (f : FaceId) (op : TswTestOp)
  | spallClear (f : FaceId) (list : NamedList)
  | fnExp2 (f : FaceId) (op : FnOp)
  | fnLog2 (f : FaceId) (op : FnOp)
  | fnTab (f : FaceId) (slot : Fin 8) (op : FnOp)
  | fnGate (f : FaceId) (op : GateOp)
  | smax1 (f : FaceId) (op : Smax1Op)
  | smax2 (f : FaceId) (op : Smax2Op)
  | normStats (f : FaceId) (op : NormStatsOp)
  | normApply (f : FaceId) (op : NormApplyOp)
  | normGrad1 (f : FaceId) (op : NormGrad1Op)
  | normGrad2 (f : FaceId) (op : NormGrad2Op)
  | smaxGrad1 (f : FaceId) (op : SmaxGrad1Op)
  | smaxGrad2 (f : FaceId) (op : SmaxGrad2Op)
  | gsScan (f : FaceId) (op : GsScanOp)
  | collFill (f : FaceId) (bucket : BitVec 12)
  | fabricSend (f : FaceId) (op : SendOp)
  | atomicAdd (f : FaceId) (op : AtomicOp)
  | moverTransfer (f : FaceId) (op : MoveOp)
  | addContribution (pkt : Packet)
  | addGroupComplete (target : DevAddr)
  | refreshSlot (d : DieId)
  | patrolScrub (addr : DevAddr)
  | stackErrorLimit (m : StackId)
  | flitReceive (p : PortId) (flit : Flit) (fecOk : Bool)
  | linkFail (p : PortId) (alignment : Bool)
  | linkRetrainTimer (p : PortId)
  | linkSignalDetect (p : PortId)
  | linkSignalLoss (p : PortId)
  | linkTrained (p : PortId)
  | helloTimer (p : PortId)
  | hello (p : PortId) (bytes : List Byte)
  | packetRoute (src : Option PortId) (pkt : Packet)
  | landingWrite (pkt : Packet)
  | commandPacket (pkt : Packet)
  | replyPacket (pkt : Packet)
  | collectiveSegment (pkt : Packet)
  | haltNotice (pkt : Packet)
  | extensionAnnouncement (pkt : Packet)
  | twinDigest (pkt : Packet)
  | powerEvent (src : FAddr) (pit : PitId)
  | management (p : PortId) (pkt : Packet)
  | frameBoundary (clock : Int)
  | frameMarker (p : PortId) (mk : Marker)
  | timebaseLock
  | errorRecord
  | faceCheckerFault (f : FaceId) (unit : Byte)
  | weighbridgeBoot (flashOk : Bool)
  | mainEnable (vMain vStby inlet : BitVec 32)
  | mainRampDone
  | hubStartDone
  | dieStartDone
  | powerOnBistDone (res : List PostResult)
  | hbmTrainingDone (m : StackId) (ok : Bool)
  | perstNRelease
  | pcieLinkUp
  | bulkLowDetect (vMain : BitVec 32)
  | regulatorStop
  | sagClear
  | mainInputRestore
  | overcurrent (vNode : BitVec 32)
  | highInput
  | highInputEnd
  | standbyLow (vMain : BitVec 32)
  | standbyLowStopTimer
  | mainPowerLoss
  | sensorPoll (r : Readings)
  | thermalHaltPersist (sensor : Fin 30) (reading : BitVec 32)
  | thermalStopTimer
  | leakDetect (own : Bool)
  | leakStopTimer
  | leakClearTimer
  | mgmtDatagram (sender : BitVec 48) (bytes : List Byte)
  | fwDatagram (bytes : List Byte)
  | fwRelayPiece (bytes : List Byte)
  | opMinTick
  | enumerationTrain (pulses : Nat)
  | chainEnumTimeout
  | sqDoorbell (q : QueueId) (tail : BitVec 32)
  | cqDoorbell (q : QueueId) (head : BitVec 32)
  | queueEnable (q : QueueId) (enable : Bool)
  | csrWrite (path : CsrPath) (off size : Nat) (value : Option (BitVec 64))
  | bar4Access (off : Nat) (acc : BarAcc)
  | convCntCtlClear
  | spallCntCtlClear
  | fnCntCtlClear
  | slackClear
  | tickEv (on : Bool)
  | cmdEv (on : Bool)
  | fabEv (on : Bool)
  | errEv (on : Bool)
  | standbyPowerLoss
  | pcieLinkDown
  | queuePcieError (q : QueueId)
  | flitSlot (p : PortId) (slot : Fin 400)
  deriving DecidableEq, Repr

end Sys2Proof
end

