-- ==== Sys2Proof/Config.lean ====
section
/-! DEFINITION. What the CZ2 manual leaves to an implementation or to a file outside it: opaque constants.
No proof can see a value of one of them, so a claim that holds of the model holds whatever they are. -/

namespace Sys2Proof.Config

/-- Coefficient `c_i` of segment `j` of the native built-in exp2 (`log = false`) or log2 (`log = true`), a posit32
pattern, for the function-table set `fts` (R133: Plahild's published file fixes the values). Log entry 20. -/
opaque nativeCoef : (fts : BitVec 16) → (log : Bool) → (j : Nat) → (i : Nat) → BitVec 32
/-- The same for the quadratic CZ1 coefficients (R147). Log entry 20. -/
opaque cz1Coef : (fts : BitVec 16) → (log : Bool) → (j : Nat) → (i : Nat) → BitVec 32

/-- The number of the rule that an image breaks on a Face, and the instruction index, or 0 where it breaks none: the
instruction encodings inside an image are Etmer's (R389). Log entry 21. -/
opaque imageBrokenRule : (image : List Byte) → (face : Nat) → Nat
opaque imageBrokenIndex : (image : List Byte) → (face : Nat) → Nat
/-- The stream descriptors of a Face's instructions, 32 bytes each with the index of the instruction that holds it, the spall list
descriptors of its spall table, at most 255 of 32 bytes (R99, R117, R389): the manual lays out each descriptor, but not where an
image keeps it. Log entry 21. -/
opaque imageStreams : (image : List Byte) → (face : Nat) → List (Nat × List Byte)
opaque imageSpalls : (image : List Byte) → (face : Nat) → List (List Byte)
/-- Number of entries in an image's lift table, and for each entry its die-independent figures (R198, R389):
cell digest, places C per tick, span D in ticks, and the scratchpad offset of the count word (R103). Log entry 21. -/
opaque imageLifts : (image : List Byte) → List (BitVec 64 × Nat × Nat × SpOff)
/-- The messages and the add groups that a Face's program reads, and the ranges of device memory (address, length) that it uses: what its
instructions name, which the manual does not lay out in an image (R217, R252, R253, R259, R389). Log entries 21 and 149. -/
opaque imageExpects : (image : List Byte) → (face : Nat) → List Expect
opaque imageGroups : (image : List Byte) → (face : Nat) → List GroupUse
opaque imageRanges : (image : List Byte) → (face : Nat) → List (Nat × Nat)
/-- The collective reservation of an image on a Face: vector-engine cycles, and bytes of its movers, per tick (R297, R389). Log entry 21. -/
opaque imageReservation : (image : List Byte) → (face : Nat) → Nat × Nat
/-- Bytes of HBM that a Face's program claims in every 12-cycle round (R245, R389). Log entry 21. -/
opaque imageHbmShare : (image : List Byte) → (face : Nat) → Nat
/-- Number of program entries of an image (R219, R389). Log entry 21. -/
opaque imageEntries : (image : List Byte) → Nat
/-- Whether an image places work on a Face (R346, R389). Log entry 21. -/
opaque imageUsesFace : (image : List Byte) → (face : Nat) → Bool

/-- What a staged firmware package says and yields, whose formats the manual does not lay out (R353, R359): the generation in the package
header, whether its ECDSA signature verifies under the boot block's key, the SHA-384 digest of its base image and the hashes of the
components it should yield; and from all pieces and the base image, the hashes of the components built and the SHA-384 of the new slot.
Log entry 22. -/
opaque pkgGeneration : (piece0 : List Byte) → BitVec 8
opaque pkgSignatureOk : (key piece0 : List Byte) → Bool
opaque pkgBase : (piece0 : List Byte) → BitVec 384
opaque pkgHashes : (piece0 : List Byte) → List (BitVec 384)
opaque builtHashes : (pieces : List (Nat × List Byte)) → (base : BitVec 384) → List (BitVec 384)
opaque builtSha : (pieces : List (Nat × List Byte)) → (base : BitVec 384) → BitVec 384
/-- The four revisions of the image a package builds (Weighbridge, Derrick, microcode, function-table set), 16 bits
each, and its rounding revision (R353, R364). Log entry 22. -/
opaque pkgRevs : (piece0 : List Byte) → BitVec 64
opaque pkgRoundRev : (piece0 : List Byte) → BitVec 8

/-- Bytes of one input row and of one output row of a cell, by its descriptor: the manual gives a row's format, not its number of
values (R172, R195). Log entry 26. -/
opaque inRowBytes : (cell : List Byte) → Nat
opaque outRowBytes : (cell : List Byte) → Nat

/-- The bytes of a packet body that the manual does not lay out (R274). Log entry 84. -/
opaque loadBody : Load → List Byte
/-- The body of the reply to a class-0 management request, whose contents the manual does not lay out (R274).
Log entry 23. -/
opaque managementReply : (body : List Byte) → List Byte

/-- A byte that the manual calls undefined, numbered by the model's counter of such bytes (R197, R293, R253, R309, R313):
log entry 24. -/
opaque freeByte : Nat → Byte

/-- SOURCE of a trace record and the place of its event data in bytes 16 to 31 (R332 names the data, not their layout):
event code and the data in the order R332 names them. Log entry 25. -/
opaque traceSource : (code : Nat) → (data : List Nat) → BitVec 16
opaque traceData : (code : Nat) → (data : List Nat) → BitVec 128

end Sys2Proof.Config
end

