-- ==== Sys2Proof/Machine/Bytes.lean ====
section
/-! DEFINITION. Byte order, bit fields, checksums and sparse maps, shared by every unit. -/

namespace Sys2Proof.Machine

/-- A little-endian byte list as a number (R10). -/
def leNat : List Byte → Nat
  | [] => 0
  | b :: r => b.toNat + 256 * leNat r

/-- The `n` low bytes of a number, little-endian (R10). -/
def leBytes : Nat → Nat → List Byte
  | 0, _ => []
  | n + 1, v => BitVec.ofNat 8 v :: leBytes n (v / 256)

/-- Bits [hi:lo] of a number (R10). -/
def bits (v hi lo : Nat) : Nat := v / 2 ^ lo % 2 ^ (hi + 1 - lo)

/-- Bit i of a number. -/
def bit (v i : Nat) : Bool := v / 2 ^ i % 2 == 1

def b2n (b : Bool) : Nat := if b then 1 else 0

/-- `n` bytes of a list from offset `off`, as a little-endian number; missing bytes read as 0. -/
def leAt (l : List Byte) (off n : Nat) : Nat := leNat ((l.drop off).take n)

/-- Every byte of a list from `off`, for `n` bytes, is 0. -/
def zeroAt (l : List Byte) (off n : Nat) : Bool := ((l.drop off).take n).all (· == 0)

def zeros (n : Nat) : List Byte := List.replicate n 0

/-- A list cut or padded with zeros to `n` bytes. -/
def padTo (n : Nat) (l : List Byte) : List Byte := l.take n ++ zeros (n - l.length)

/-- `start, start + 1, …`, `n` numbers. -/
def rangeFrom (start n : Nat) : List Nat := (List.range n).map (start + ·)

def ceilDiv (a b : Nat) : Nat := (a + b - 1) / b

/-- Add 1 to a counter that stops at its largest value (R47, R250, R287). -/
def satInc (w : Nat) (c : BitVec w) : BitVec w := if c.toNat + 1 < 2 ^ w then c + 1 else c

/-- Add `n` to a saturating counter. -/
def satAdd (w : Nat) (c : BitVec w) (n : Nat) : BitVec w := BitVec.ofNat w (Nat.min (c.toNat + n) (2 ^ w - 1))

/-- A two's-complement number of `w` bits. -/
def toSigned (w v : Nat) : Int := if v % 2 ^ w < 2 ^ (w - 1) then (v % 2 ^ w : Nat) else (v % 2 ^ w : Nat) - 2 ^ w

/-- The `w`-bit two's-complement pattern of an integer. -/
def ofSigned (w : Nat) (v : Int) : Nat := (v % (2 ^ w : Nat)).toNat

/-! ### Checksums, by their published parameters -/

/-- One bit of a reflected CRC. -/
def crcReflStep (poly c : Nat) : Nat := if c % 2 = 1 then (c / 2) ^^^ poly else c / 2

def crcReflByte (poly c : Nat) (b : Byte) : Nat :=
  (List.range 8).foldl (fun c _ => crcReflStep poly c) (c ^^^ b.toNat)

/-- CRC-32C: reflected polynomial 0x82F63B78, initial and final value 0xFFFF_FFFF (R318, R137, R335). -/
def crc32c (l : List Byte) : BitVec 32 :=
  BitVec.ofNat 32 (l.foldl (crcReflByte 0x82F63B78) 0xFFFFFFFF ^^^ 0xFFFFFFFF)

/-- One bit of a CRC of width `w`, most significant bit first. -/
def crcStep (w poly c : Nat) : Nat := if bit c (w - 1) then (c * 2 % 2 ^ w) ^^^ poly else c * 2 % 2 ^ w

def crcByte (w poly c : Nat) (b : Byte) : Nat :=
  (List.range 8).foldl (fun c _ => crcStep w poly c) (c ^^^ (b.toNat * 2 ^ (w - 8)))

/-- CRC-64/ECMA-182: polynomial 0x42F0E1EBA9EA3693, initial value 0 (R172, R203, R262). -/
def crc64 (l : List Byte) : BitVec 64 := BitVec.ofNat 64 (l.foldl (crcByte 64 0x42F0E1EBA9EA3693) 0)

/-- CRC-16/IBM-3740: polynomial 0x1021, initial value 0xFFFF (R319). -/
def crc16 (l : List Byte) : BitVec 16 := BitVec.ofNat 16 (l.foldl (crcByte 16 0x1021) 0xFFFF)

/-- The mixing rounds shared by R114 and R235. -/
def mixRound (x : BitVec 64) : BitVec 64 :=
  let x := (x ^^^ (x >>> 30)) * 0xBF58476D1CE4E5B9
  let x := (x ^^^ (x >>> 27)) * 0x94D049BB133111EB
  x ^^^ (x >>> 31)

/-! ### Sparse maps in one canonical form: keys rising, no entry at the default -/

def sget {α : Type} (d : α) : List (Nat × α) → Nat → α
  | [], _ => d
  | (k', v) :: r, k => if k = k' then v else if k < k' then d else sget d r k

def sset {α : Type} [DecidableEq α] (d : α) : List (Nat × α) → Nat → α → List (Nat × α)
  | [], k, v => if v = d then [] else [(k, v)]
  | (k', v') :: r, k, v =>
    if k < k' then (if v = d then (k', v') :: r else (k, v) :: (k', v') :: r)
    else if k = k' then (if v = d then r else (k, v) :: r)
    else (k', v') :: sset d r k v

/-- Keys strictly rising from `lo`, and no entry at the default. -/
def swfFrom {α : Type} [DecidableEq α] (d : α) : Nat → List (Nat × α) → Bool
  | _, [] => true
  | lo, (k, v) :: r => decide (lo ≤ k) && decide (v ≠ d) && swfFrom d (k + 1) r

def swf {α : Type} [DecidableEq α] (d : α) (m : List (Nat × α)) : Bool := swfFrom d 0 m

/-- Insertion into a rising list of numbers without repeats. -/
def nins (k : Nat) : List Nat → List Nat
  | [] => [k]
  | k' :: r => if k < k' then k :: k' :: r else if k = k' then k' :: r else k' :: nins k r

/-- `List.set` with an update in place of a value. -/
def lmod {α : Type} (f : α → α) : List α → Nat → List α
  | [], _ => []
  | a :: r, 0 => f a :: r
  | a :: r, i + 1 => a :: lmod f r i

end Sys2Proof.Machine
end

