-- ==== Sys2Proof/Machine/Posit.lean ====
section
/-! DEFINITION. Values, posit encoding and rounding (R30–R33), IEEE exchange formats (R44, R45), integers (R41, R42) and
stochastic rounding (R113, R114). A real value is an exact rational. -/

namespace Sys2Proof.Machine

/-- What an encoding stands for: NaR, a real value, or an IEEE infinity or NaN before its conversion (R44). -/
inductive Val where
  | nar
  | fin (q : Rat)
  | inf (neg : Bool)
  | nan
  deriving DecidableEq, Repr

def Val.isReal : Val → Bool
  | .fin _ => true
  | _ => false

def Val.toRat : Val → Rat
  | .fin q => q
  | _ => 0

/-- The value a unit computes with: everything that is not real is NaR (R44). -/
def Val.toNar : Val → Val
  | .fin q => .fin q
  | _ => .nar

def Val.zero : Val := .fin 0

def Val.map2 (f : Rat → Rat → Rat) : Val → Val → Val
  | .fin a, .fin b => .fin (f a b)
  | _, _ => .nar

def Val.neg : Val → Val
  | .fin a => .fin (-a)
  | v => v

/-- 2 to an integer power. -/
def pow2 (e : Int) : Rat := if 0 ≤ e then ((2 ^ e.toNat : Nat) : Rat) else mkRat 1 (2 ^ (-e).toNat)

def ratAbs (q : Rat) : Rat := if q < 0 then -q else q

/-- ⌊log2 q⌋ of a positive rational. -/
def floorLog2 (q : Rat) : Int :=
  let e : Int := (Nat.log2 q.num.natAbs : Int) - (Nat.log2 q.den : Int)
  if pow2 e ≤ q then e else e - 1

/-- Nearest integer, ties to even (R42, R53). -/
def rne (q : Rat) : Int :=
  let f := q.floor
  let r := q - (f : Rat)
  if r < mkRat 1 2 then f else if mkRat 1 2 < r then f + 1 else if f % 2 = 0 then f else f + 1

/-- A square root to `p` binary places, with half a unit of tail where it is not exact, so that any rounding that looks at
fewer places than `p` sees the exact root's bits and sticky (R104, R153). -/
def sqrtSticky (p : Nat) (q : Rat) : Rat :=
  let n := q.num.natAbs * 4 ^ p / q.den
  let r := Nat.sqrt n
  let exact := mkRat ((r * r : Nat) : Int) (4 ^ p) == q
  if exact then mkRat r (2 ^ p) else mkRat (2 * r + 1 : Nat) (2 ^ (p + 1))

/-! ### Posit encoding -/

/-- How many bits from `i` downward equal `first` (R30). -/
def runLen (v : Nat) (first : Bool) : Nat → Nat
  | 0 => if bit v 0 == first then 1 else 0
  | i + 1 => if bit v (i + 1) == first then runLen v first i + 1 else 0

/-- R30, for a positive pattern of `n` bits. -/
def positMag (n v : Nat) : Rat :=
  let first := bit v (n - 2)
  let m := runLen v first (n - 2)
  let k : Int := if first then (m : Int) - 1 else -(m : Int)
  let left := n - 2 - m                    -- bits below the terminator
  let rest := v % 2 ^ left
  let e := if left ≥ 2 then rest / 2 ^ (left - 2) else rest * 2 ^ (2 - left)
  let fn := left - 2
  let f := rest % 2 ^ fn
  pow2 (4 * k + e) * (1 + mkRat f (2 ^ fn))

/-- R30: the value of an n-bit posit pattern. -/
def positDecode (n v : Nat) : Val :=
  let v := v % 2 ^ n
  if v = 0 then .fin 0
  else if v = 2 ^ (n - 1) then .nar
  else if bit v (n - 1) then .fin (-(positMag n (2 ^ n - v)))
  else .fin (positMag n v)

/-- maxpos = 2^(4 × (n − 2)) (R29). -/
def maxpos (n : Nat) : Rat := pow2 (4 * ((n : Int) - 2))
def minpos (n : Nat) : Rat := pow2 (-(4 * ((n : Int) - 2)))

/-- The magnitude clamped to [minpos, maxpos] (R32). -/
def positClamp (n : Nat) (a : Rat) : Rat := if maxpos n < a then maxpos n else if a < minpos n then minpos n else a

/-- The unbounded string of R32 for a magnitude, as a number whose integer part is the n − 1 kept bits. -/
def positString (n : Nat) (a : Rat) : Rat :=
  let E := floorLog2 a
  let k := E.fdiv 4
  let e := E - 4 * k
  let g := a / pow2 E - 1
  let reg : Int := if 0 ≤ k then (2 ^ (k.toNat + 1) - 1) * 2 else 1
  let len : Int := if 0 ≤ k then k + 2 else -k + 1
  ((reg * 4 + e : Int) + g) * pow2 ((n : Int) - 1 - (len + 2))

def positSigned (n : Nat) (neg : Bool) (kept : Nat) : Nat := if neg then (2 ^ n - kept) % 2 ^ n else kept

/-- NaR of an n-bit posit (R31). -/
def narBits (n : Nat) : Nat := 2 ^ (n - 1)

/-- R32: a real value rounded to an n-bit posit pattern. -/
def positRound (n : Nat) (x : Rat) : Nat :=
  if x = 0 then 0
  else positSigned n (decide (x < 0)) (rne (positString n (positClamp n (ratAbs x)))).toNat

/-- R32 with the guard and sticky step of R113, for the 32 random bits `u`. -/
def positRoundSr (n u : Nat) (x : Rat) : Nat :=
  if x = 0 then 0
  else
    let X := positString n (positClamp n (ratAbs x))
    let kept := X.floor
    let tail := ((X - (kept : Rat)) * ((2 ^ 32 : Nat) : Rat)).floor
    let kept := if tail + u ≥ 2 ^ 32 then kept + 1 else kept
    positSigned n (decide (x < 0)) kept.toNat

/-- The pattern of a value in an n-bit posit format; whatever is not real is NaR. -/
def positEncode (n : Nat) : Val → Nat
  | .fin q => positRound n q
  | _ => narBits n

/-- The rounding of R32 saturates: the magnitude lies outside [minpos, maxpos] and is not 0 (R47). -/
def positSat (n : Nat) (x : Rat) : Bool := decide (x ≠ 0) && (decide (maxpos n < ratAbs x) || decide (ratAbs x < minpos n))

/-- Rounding to posit32 and back, as the value (round32 of R110, R150, R174). -/
def round32 : Val → Val
  | .fin q => positDecode 32 (positRound 32 q)
  | _ => .nar

/-- The random bits of R114, as 32 bits. -/
def srBits (seed ptick addr : BitVec 64) : Nat :=
  let x := seed ^^^ (ptick * 0x9E3779B97F4A7C15) ^^^ (addr * 0xC2B2AE3D27D4EB4F)
  (mixRound (mixRound x) >>> 32).toNat

/-! ### IEEE exchange formats: `eb` exponent bits and `mb` fraction bits -/

def ieeeBias (eb : Nat) : Int := 2 ^ (eb - 1) - 1

/-- The value of an IEEE pattern (R44). -/
def ieeeDecode (eb mb v : Nat) : Val :=
  let neg := bit v (eb + mb)
  let e := v / 2 ^ mb % 2 ^ eb
  let m := v % 2 ^ mb
  if e = 2 ^ eb - 1 then (if m = 0 then .inf neg else .nan)
  else
    let mag : Rat := if e = 0 then ((m : Int) : Rat) * pow2 (1 - ieeeBias eb - mb)
                     else ((2 ^ mb + m : Nat) : Rat) * pow2 ((e : Int) - ieeeBias eb - mb)
    .fin (if neg then -mag else mag)

/-- The canonical quiet NaN of R45. -/
def ieeeQuiet (eb mb : Nat) : Nat := (2 ^ eb - 1) * 2 ^ mb + 2 ^ (mb - 1)

/-- roundTiesToEven of a real value, with subnormals and overflow to infinity (R45). -/
def ieeeRound (eb mb : Nat) (x : Rat) : Nat :=
  if x = 0 then 0
  else
    let a := ratAbs x
    let emin : Int := 1 - ieeeBias eb
    let E := if floorLog2 a < emin then emin else floorLog2 a
    let q := (rne (a / pow2 (E - mb))).toNat
    let mag := Nat.min ((E - emin).toNat * 2 ^ mb + q) ((2 ^ eb - 1) * 2 ^ mb)
    (if x < 0 then 2 ^ (eb + mb) else 0) + mag

/-- R45 counts a result of ±∞, or a zero from a nonzero value. -/
def ieeeSat (eb mb : Nat) (x : Rat) : Bool :=
  let mag := ieeeRound eb mb x % 2 ^ (eb + mb)
  decide (x ≠ 0) && (mag == 0 || mag == (2 ^ eb - 1) * 2 ^ mb)

def ieeeEncode (eb mb : Nat) : Val → Nat
  | .fin q => ieeeRound eb mb q
  | _ => ieeeQuiet eb mb

/-! ### Integers -/

def intMin (w : Nat) : Int := -(2 ^ (w - 1))
def intMax (w : Nat) : Int := 2 ^ (w - 1) - 1

def clampInt (lo hi x : Int) : Int := if x < lo then lo else if hi < x then hi else x

/-- R42: nearest integer, ties to even, saturated; what is not real converts to 0. -/
def intRound (w : Nat) : Val → Int
  | .fin q => clampInt (intMin w) (intMax w) (rne q)
  | _ => 0

/-- R42: the conversion saturates. -/
def intSat (w : Nat) (q : Rat) : Bool := decide (rne q < intMin w) || decide (intMax w < rne q)

end Sys2Proof.Machine
end

