-- ==== Sys2Proof/Machine/Formats.lean ====
section
/-! DEFINITION. Element formats (R29, R100), block posits (R34–R40) and the rounding of one value to any format. -/

namespace Sys2Proof.Machine

/-- The element formats of R100. -/
inductive Fmt where
  | posit8
  | posit16
  | posit32
  | bp8
  | bp16
  | int32
  | quire128
  | quire256
  | quire512
  | int8
  | int4
  | binary32
  | binary16
  | bfloat16
  | mask
  deriving DecidableEq, Repr

/-- FMT codes of R100; 0 is Rsvd. -/
def Fmt.ofCode (c : BitVec 4) : Option Fmt :=
  match c.toNat with
  | 1 => some .posit8 | 2 => some .posit16 | 3 => some .posit32 | 4 => some .bp8 | 5 => some .bp16
  | 6 => some .int32 | 7 => some .quire128 | 8 => some .quire256 | 9 => some .quire512 | 10 => some .int8
  | 11 => some .int4 | 12 => some .binary32 | 13 => some .binary16 | 14 => some .bfloat16 | 15 => some .mask
  | _ => none

def Fmt.code : Fmt → BitVec 4
  | .posit8 => 1 | .posit16 => 2 | .posit32 => 3 | .bp8 => 4 | .bp16 => 5 | .int32 => 6 | .quire128 => 7
  | .quire256 => 8 | .quire512 => 9 | .int8 => 10 | .int4 => 11 | .binary32 => 12 | .binary16 => 13
  | .bfloat16 => 14 | .mask => 15

/-- Bits of one descriptor element (R100): a BP element is a block of 36 or 68 bytes. -/
def Fmt.bits : Fmt → Nat
  | .posit8 => 8 | .posit16 => 16 | .posit32 => 32 | .bp8 => 288 | .bp16 => 544 | .int32 => 32 | .quire128 => 128
  | .quire256 => 256 | .quire512 => 512 | .int8 => 8 | .int4 => 4 | .binary32 => 32 | .binary16 => 16
  | .bfloat16 => 16 | .mask => 1

/-- Strides count bytes, half-bytes for INT4 and bits for masks (R99): the unit in bits. -/
def Fmt.strideBits : Fmt → Nat
  | .int4 => 4 | .mask => 1 | _ => 8

def Fmt.isPosit : Fmt → Bool
  | .posit8 | .posit16 | .posit32 => true | _ => false
def Fmt.isBp : Fmt → Bool
  | .bp8 | .bp16 => true | _ => false
def Fmt.isInt : Fmt → Bool
  | .int8 | .int4 | .int32 => true | _ => false
def Fmt.isIeee : Fmt → Bool
  | .binary32 | .binary16 | .bfloat16 => true | _ => false
def Fmt.isQuire : Fmt → Bool
  | .quire128 | .quire256 | .quire512 => true | _ => false
def Fmt.isPositOrBp (f : Fmt) : Bool := f.isPosit || f.isBp

/-- Values of one descriptor element (R103). -/
def Fmt.valuesPer (f : Fmt) : Nat := if f.isBp then 32 else 1

/-- Width of a posit, or of a BP element. -/
def Fmt.positN : Fmt → Nat
  | .posit8 | .bp8 => 8 | .posit16 | .bp16 => 16 | _ => 32

/-- Width of an integer format. -/
def Fmt.intW : Fmt → Nat
  | .int8 => 8 | .int4 => 4 | _ => 32

/-- Alignment in bits that R101 asks of an element. -/
def Fmt.alignBits : Fmt → Nat
  | .bp8 | .bp16 => 32
  | .quire128 | .quire256 | .quire512 => 128
  | .int4 => 4 | .mask => 1
  | f => f.bits

/-- The value of a pattern in a scalar format. -/
def Fmt.decode (f : Fmt) (v : Nat) : Val :=
  match f with
  | .posit8 => positDecode 8 v
  | .posit16 => positDecode 16 v
  | .posit32 => positDecode 32 v
  | .int8 => .fin (toSigned 8 v)
  | .int4 => .fin (toSigned 4 v)
  | .int32 => .fin (toSigned 32 v)
  | .binary32 => ieeeDecode 8 23 v
  | .binary16 => ieeeDecode 5 10 v
  | .bfloat16 => ieeeDecode 8 7 v
  | .mask => .fin (v % 2 : Nat)
  | _ => .nar

/-- One value rounded once to a scalar format (R32, R42, R45). -/
def Fmt.encode (f : Fmt) (v : Val) : Nat :=
  match f with
  | .posit8 => positEncode 8 v
  | .posit16 => positEncode 16 v
  | .posit32 => positEncode 32 v
  | .int8 => ofSigned 8 (intRound 8 v)
  | .int4 => ofSigned 4 (intRound 4 v)
  | .int32 => ofSigned 32 (intRound 32 v)
  | .binary32 => ieeeEncode 8 23 v
  | .binary16 => ieeeEncode 5 10 v
  | .bfloat16 => ieeeEncode 8 7 v
  | .mask => if v = .fin 0 then 0 else 1
  | _ => 0

/-- The rounding leaves the format's range, as CONV_RANGE counts it (R47). -/
def Fmt.saturates (f : Fmt) (q : Rat) : Bool :=
  match f with
  | .posit8 => positSat 8 q
  | .posit16 => positSat 16 q
  | .posit32 => positSat 32 q
  | .int8 => intSat 8 q
  | .int4 => intSat 4 q
  | .int32 => intSat 32 q
  | .binary32 => ieeeSat 8 23 q
  | .binary16 => ieeeSat 5 10 q
  | .bfloat16 => ieeeSat 8 7 q
  | _ => false

/-! ### Block posits -/

/-- A block header (R35). -/
structure BpHeader where
  scale : Int
  escal : Nat
  nesc  : Nat
  esc0  : Nat
  esc1  : Nat
  rsvd  : Nat
  deriving DecidableEq, Repr

def BpHeader.ofNat (v : Nat) : BpHeader :=
  { scale := toSigned 8 (bits v 31 24), escal := bits v 23 21, nesc := bits v 20 19, esc0 := bits v 18 14,
    esc1 := bits v 13 9, rsvd := bits v 8 0 }

def BpHeader.toNat (h : BpHeader) : Nat :=
  ofSigned 8 h.scale * 2 ^ 24 + h.escal * 2 ^ 21 + h.nesc * 2 ^ 19 + h.esc0 * 2 ^ 14 + h.esc1 * 2 ^ 9 + h.rsvd

def BpHeader.isZero (h : BpHeader) : Bool := h.scale == -128

/-- The conditions of R36. -/
def BpHeader.malformed (h : BpHeader) : Bool :=
  h.scale == 127 || h.nesc == 3 || (h.nesc == 0 && (h.esc0 != 0 || h.esc1 != 0)) || (h.nesc == 1 && h.esc1 != 0)
    || (h.nesc == 2 && h.esc1 ≤ h.esc0) || (h.isZero && h.nesc != 0) || h.rsvd != 0

def BpHeader.escaped (h : BpHeader) (i : Nat) : Bool :=
  (decide (1 ≤ h.nesc) && i == h.esc0) || (h.nesc == 2 && i == h.esc1)

/-- A source value of an encoder: its value, the IEEE pattern with its format where the source was IEEE (R40), and, for a source that is
a square root, its exact square, which R39's comparisons use in place of the value (R105). -/
structure SrcVal where
  v    : Val
  ieee : Option (Fmt × Nat)
  root : Option Rat
  deriving DecidableEq, Repr

/-- A source that is not IEEE and no root. -/
def SrcVal.of (v : Val) : SrcVal := ⟨v, none, none⟩

/-- The exact square of a real source; `none` for NaR. R39 compares magnitudes, sums squares and takes a logarithm, and each of these
is decided exactly on the squares. -/
def SrcVal.sq (s : SrcVal) : Option Rat :=
  match s.v with
  | .fin q => some (match s.root with | some r => r | none => q * q)
  | _ => none

/-- An escaped value as the spall list holds it: element, VFMT code and VALUE (R40, R118). -/
structure Escape where
  elem : Nat
  vfmt : BitVec 4
  bits : BitVec 32
  sat  : Bool
  deriving DecidableEq, Repr

/-- The form in which R40 stores an escaped value. -/
def SrcVal.escape (s : SrcVal) (elem : Nat) : Escape :=
  match s.ieee with
  | some (f, p) => { elem, vfmt := f.code, bits := BitVec.ofNat 32 p, sat := false }
  | none => { elem, vfmt := 3, bits := BitVec.ofNat 32 (positEncode 32 s.v), sat := positSat 32 s.v.toRat }

/-- Index and square of the largest magnitude among real values whose index is not in `skip`, the lowest index on ties. The values are
given by their squares, NaR as `none`. -/
def largestSq : List (Option Rat) → Nat → List Nat → Option (Nat × Rat) → Option (Nat × Rat)
  | [], _, _, best => best
  | v :: r, i, skip, best =>
    let best := match v with
      | some q => if skip.contains i then best
                  else match best with
                    | none => some (i, q)
                    | some (_, m) => if m < q then some (i, q) else best
      | none => best
    largestSq r (i + 1) skip best

/-- The escape step of R39: at most two elements, while slots are free. a > 2^T × b is decided on the squares. Returns the escaped
indices in the order taken and the number of refused escapes. -/
def escapeStep (vs : List (Option Rat)) (t : Nat) : Nat → Nat → List Nat → List Nat × Nat
  | 0, _, got => (got, 0)
  | fuel + 1, free, got =>
    match largestSq vs 0 got none with
    | none => (got, 0)
    | some (i, a) =>
      let b := match largestSq vs 0 (i :: got) none with
        | some (_, m) => m
        | none => 0
      if b = 0 ∨ a ≤ ((4 ^ t : Nat) : Rat) * b then (got, 0)
      else if free = 0 then (got, 1)
      else escapeStep vs t fuel (free - 1) (i :: got)

/-- The escapes of a unit's sources, by their squares; `on` false turns the policy off. -/
def escapes (on : Bool) (vs : List (Option Rat)) (t free : Nat) : List Nat × Nat :=
  if on then escapeStep vs t 2 free [] else ([], 0)

def natMax2 (a b : Nat) : Nat := if a < b then b else a
def natMin2 (a b : Nat) : Nat := if a < b then a else b

/-- The scale that R39 chooses for values of these squares, before its clamp: ⌊log2 m⌋ is half of ⌊log2 m²⌋, rounded down. -/
def chooseScale (maxalign : Bool) (rest : List Rat) : Int :=
  if rest.all (· == 0) then 0
  else if maxalign then
    (floorLog2 (rest.foldl (fun m q => if m < q then q else m) 0)).fdiv 2 - 4
  else
    (floorLog2 (rest.foldl (fun s q => s + q) 0 / (rest.length : Rat))).fdiv 2

def clampScale (s : Int) : Int := clampInt (-127) 126 s

/-- A block as encoded: header, 32 element patterns, the escapes, and what the counters count. -/
structure BpBlock where
  header   : BpHeader
  elems    : List Nat
  escapes  : List Escape
  refused  : Nat
  clamped  : Bool
  sats     : Nat
  deriving DecidableEq, Repr

/-- The element rounding of R39 at scale `s`. -/
def bpElem (n : Nat) (s : Int) : Val → Nat
  | .fin q => positRound n (q * pow2 (-s))
  | _ => narBits n

/-- R39: `n` is 8 or 16, `esc` is ESC_THRESH of R115, `free` the number of free slots of the unit's page. -/
def bpEncode (n : Nat) (maxalign : Bool) (esc : Byte) (free : Nat) (src : List SrcVal) : BpBlock :=
  let vs := src.map fun s => s.v.toNar
  if vs.all (· == .fin 0) then
    { header := ⟨-128, 0, 0, 0, 0, 0⟩, elems := List.replicate 32 0, escapes := [], refused := 0, clamped := false, sats := 0 }
  else
    let sqs := src.map SrcVal.sq
    let (got, refused) := escapes (bit esc.toNat 7) sqs (bits esc.toNat 4 0) free
    let rest := ((List.range vs.length).zip vs).filterMap fun (i, v) =>
      match v with
      | .fin q => if got.contains i then none else some q
      | _ => none
    let s0 := chooseScale maxalign (((List.range sqs.length).zip sqs).filterMap fun (i, q) => if got.contains i then none else q)
    let s := clampScale s0
    let e0 := match got with | [a, b] => natMin2 a b | [a] => a | _ => 0
    let e1 := match got with | [a, b] => natMax2 a b | _ => 0
    let order := match got with | [_, _] => [e0, e1] | [_] => [e0] | _ => []
    let elems := ((List.range vs.length).zip vs).map fun (i, v) => if got.contains i then 0 else bpElem n s v
    let sats := (rest.filter fun q => positSat n (q * pow2 (-s))).length
    { header := ⟨s, 0, got.length, e0, e1, 0⟩, elems := elems,
      escapes := order.filterMap fun i => (src[i]?).map fun x => x.escape i,
      refused := refused, clamped := decide (s ≠ s0), sats := sats }

def bpBytes (n : Nat) (h : BpHeader) (elems : List Nat) : List Byte :=
  leBytes 4 h.toNat ++ elems.flatMap (leBytes (n / 8))

end Sys2Proof.Machine
end

