-- ==== Sys2Proof/Machine/State.lean ====
section
/-! DEFINITION. The state of one CZ2 module as plain data, and its state right after reset. Every register, buffer, queue,
counter, mode and pin that the manual gives the module has one home here; derived views are computed in Machine/Csr.lean. -/

namespace Sys2Proof.Machine

/-! ### Replies and outputs -/

/-- The status codes of R321. -/
inductive Status where
  | ok | pending | badVersion | badOpcode | badParam | badCrc | notReady | configBusy | pitDenied | streamMoved
  | streamUnknown | streamStateMismatch | tableNonmonotone | tableBankActive | tickOverrun | fwRejected | fwIncomplete
  | memPoisoned
  deriving DecidableEq, Repr

/-- A reply (R319). -/
structure Reply where
  path    : Path
  tag     : BitVec 16
  status  : Status
  acc     : BitVec 32
  cmp     : BitVec 32
  payload : List Byte
  deriving DecidableEq, Repr

/-- The 40 opcodes of R324. -/
inductive Op where
  | cfgRead | cfgStage | cfgCommit | progLoad | progVerify | launch | haltAt | epochBegin | streamOpen | streamChunk
  | streamPause | streamResume | streamExport | streamImport | streamClose | streamQuery | collBucketDef | collArm
  | collQuery | tableLoad | tableSwap | tableQuery | memCopy | memFill | memScrub | memRetire | readyQuery | bistRun
  | faceRetire | fwPiece | fwStatus | fwConfirm | fwRelayEnable | twinPair | twinUnpair | errRead | errAck | pitCreate
  | pitDestroy | routeEpoch
  deriving DecidableEq, Repr

/-- An accepted command that waits for its final reply: its key and its acceptance tick. -/
structure Ticket where
  key : CmdKey
  acc : BitVec 32
  deriving DecidableEq, Repr

/-- What leaves the module: replies, interrupts, flits, markers, datagrams, pulses and answers to host accesses. -/
inductive OutEvent where
  | reply (r : Reply)
  | msix (vector : Nat)
  | datagram (dst : BitVec 48) (r : Reply)
  | flit (p : PortId) (fl : Flit)
  | marker (p : PortId) (frame : BitVec 64) (sent lastRecv : Int) (locked : Bool) (depth : BitVec 6) (master : FAddr)
  | hostRead (data : List Byte) (ep : Bool)
  | csrData (path : CsrPath) (data : List Byte)
  | csrNotReady
  | unsupported
  | nack
  | i3cPiece (bytes : List Byte)
  | pulses (n : Nat)
  deriving DecidableEq, Repr

/-! ### Error records (R333–R339) -/

/-- A raised error record before it has a sequence number (R334, R335). -/
structure ErrRec where
  cls    : Nat
  halted : Bool
  code   : Nat
  pit    : PitId
  unit   : Nat
  index  : Nat
  tick   : BitVec 64
  epoch  : BitVec 32
  addr   : DevAddr
  detail : List Byte
  deriving DecidableEq, Repr

/-- A logged record with its sequence number (R336). -/
structure Logged where
  seq : Nat
  er  : ErrRec
  deriving DecidableEq, Repr

/-- Error state of the standby domain. `raised` holds records on their way to the Weighbridge; `log` is the persistent
ring, newest first (R339). `alertP3` and `alertHigh` are the other assertions of ALERT_N (R27, R367). -/
structure Errs where
  raised    : List ErrRec
  lastSeq   : Nat
  log       : List Logged
  primary   : Option Logged
  secondary : Option Logged
  lostFatal : Bool
  storm     : Bool
  lost      : BitVec 32
  alertP3   : Bool
  alertHigh : Bool
  deriving DecidableEq, Repr

/-! ### Faces -/

/-- FACE_STATE[f].STATE (R330). -/
inductive FaceSt where
  | off | testing | ready | bypassed | retired | faulty
  deriving DecidableEq, Repr

/-- A Face's event totals of the tick in progress (R47, R121, R155). -/
structure Totals where
  infIn     : Nat
  nanIn     : Nat
  convRange : Nat
  convNar   : Nat
  bpBad     : Nat
  scaleClamp : Nat
  spallFull : Nat
  spallMiss : Nat
  fnFlush   : Nat
  fnDomain  : Nat
  fnNotable : Nat
  fnEmpty   : Nat
  deriving DecidableEq, Repr

/-- A lift of a serving program: cell digest, places C, span D, and the scratchpad offset of the count word that tells the program how
many places are filled (R103, R198). -/
structure Lift where
  digest : BitVec 64
  places : Nat
  span   : Nat
  count  : SpOff
  deriving DecidableEq, Repr

/-- A tick program as PROG_LOAD leaves it on a Face (R327): the header's fields and what the image declares. `spalls` is its spall table
of up to 255 descriptors, which SPALL_ID names from 1 (R117); `expects` and `groups` are the messages and add groups that it reads (R217,
R253), and `uses` the ranges of device memory that it uses (R259). -/
structure Prog where
  clockPlan  : BitVec 2
  powerCap   : BitVec 2
  bstat      : Bool
  hbmMode    : Bool
  tickPeriod : BitVec 16
  width      : Byte
  hbmLive    : BitVec 16
  srSeed     : BitVec 64
  loadOff    : Nat
  shape      : Nat × Nat × Nat
  lifts      : List Lift
  resv       : Nat × Nat
  hbmShare   : Nat
  entries    : Nat
  used       : Bool
  digest     : BitVec 64
  spalls     : List SpallDesc
  expects    : List Expect
  groups     : List GroupUse
  uses       : List (Nat × Nat)
  deriving DecidableEq, Repr

/-- The stationary registers of a Face's Bench, active or shadow (R52, R81): 16-bit cell registers keyed 128 i + n, the
block headers in the DPU scale registers, the side path's escaped values with the marks of poisoned slots, and the marks of poisoned
weight words. n is the physical column (R92). -/
structure Stationary where
  pair   : Pair
  width  : Nat
  cells  : List (Nat × BitVec 16)
  hdrs   : List (Nat × BitVec 32)
  side   : List (Nat × Val × Bool)
  marks  : List Nat
  deriving DecidableEq, Repr

/-- One quire, with the flags of R53 and what R76 needs to name its first NaR. `q` is the exact integer sum, which the
quire bits and extension bits of R51 and R52 hold; `terms` counts the product terms it has taken (R55). -/
structure Quire where
  q        : Int
  nar      : Bool
  overflow : Bool
  invalid  : Bool
  windowed : Bool
  poison   : Bool
  preNar   : Bool
  firstK   : Option Nat
  terms    : Nat
  deriving DecidableEq, Repr

/-- A quire set (R52): the quires in use, keyed by cell 128 i + n, n the physical column, and the cells whose parity is bad (R64). `use`
is the pair and the direction of the accumulation under way, `none` until its first read or its preload names them (R86). -/
structure QuireSet where
  cells  : List (Nat × Quire)
  parity : List Nat
  use    : Option (Pair × Bool)
  deriving DecidableEq, Repr

/-- A rounded output tile with its TSW (R91). `elems` holds descriptor-element patterns in row-major order, `marks` the
poisoned ones, `read` how many values have left. -/
structure Tile where
  fmt   : Fmt
  rows  : Nat
  cols  : Nat
  elems : List Nat
  marks : List Nat
  tsw0  : BitVec 64
  tsw1  : BitVec 64
  read  : Nat
  spall : Option SpallDesc
  unit0 : Nat
  unitStep : Nat
  deriving DecidableEq, Repr

/-- A user function table in a slot (R137, R138): its 64-byte header and its entries. -/
structure Table where
  header  : List Byte
  entries : List (BitVec 32 × BitVec 32 × BitVec 32)
  deriving DecidableEq, Repr

/-- A table bank: 8 slots, the compat mark, and entries (slot, j) whose stored word is uncorrectable (R141): `ue` those that no
read has found yet, `ueSeen` those found. -/
structure Bank where
  slots  : List (Option Table)
  cz1    : Bool
  ue     : List (Nat × Nat)
  ueSeen : List (Nat × Nat)
  deriving DecidableEq, Repr

/-- The bank state of a Face (R146). `active` is the number of the active bank. -/
structure FnBanks where
  bank0       : Bank
  bank1       : Bank
  active      : Bool
  shadowValid : Bool
  loadPending : Bool
  swapAt      : Option Nat
  deriving DecidableEq, Repr

/-- What a stalled Face waits for (R217, R253). -/
inductive StallCause where
  | message (k : MsgKey)
  | group (target : DevAddr)
  deriving DecidableEq, Repr

/-- Digest of one scratchpad region in one tick: sum, lowest and highest written offset (R235). -/
structure RegionDig where
  sum : BitVec 64
  lo  : Nat
  hi  : Nat
  deriving DecidableEq, Repr

/-- Digests of one tick, by region number (R235). -/
structure TickDig where
  tick    : Nat
  regions : List (Nat × RegionDig)
  deriving DecidableEq, Repr

/-- Units of a Face that compute: Bench, function-unit banks, Gangsaw carry store. The carry store is keyed by element; `carryUe`
holds its 8-byte words with an error that no read has found, `carrySeen` those found (R180). `loaded` says that a weight load has ended
since LAUNCH, so that a swap may follow (R89). -/
structure FaceUnits where
  active   : Stationary
  shadow   : Stationary
  loaded   : Bool
  setA     : QuireSet
  setB     : QuireSet
  pipe     : List Tile
  queue    : List Tile
  banks    : FnBanks
  carry    : List (Nat × BitVec 32)
  carryUe  : List Nat
  carrySeen : List Nat
  deriving DecidableEq, Repr

/-- One Face: its state and geometry registers (R330, R93, R226), its program, its units and its twin digests. `slip` counts the
boundaries passed while its present program runs (R222, R225), `stall` and `held` say what a stalled Face waits for and the instruction
that waits (R217), and `tickBanks` holds the table bank that was active at the start of
each tick from the present one back to its program's own, with its number (R141, R222). -/
structure Face where
  state       : FaceSt
  cause       : Byte
  retirePend  : Bool
  bypassMap   : BitVec 16
  pendingMap  : BitVec 16
  bistPassed  : Bool
  prior       : FaceSt
  maxOver     : BitVec 24
  minSlack    : BitVec 24
  tot         : Totals
  prog        : Option Prog
  running     : Bool
  slip        : Nat
  stall       : Option StallCause
  held        : List Instr
  notableSeen : Bool
  tickBanks   : List (Bool × Bank)
  units       : FaceUnits
  digests     : List TickDig
  deriving DecidableEq, Repr

/-! ### Memory (R238–R260) -/

/-- An add group at an adder (R252): contributions staged or added so far, in arrival order, and refused ones. -/
structure AddGroup where
  desc   : GroupDesc
  opened : BitVec 64
  got    : List Contribution
  excess : Nat
  done   : Bool
  deriving DecidableEq, Repr

/-- A landing write in a landing buffer (R217). `under` and `underMarks` are the bytes and the poisoned granules that stood at its place
before it became visible: the view of a program of an earlier tick. -/
structure Landed where
  key   : MsgKey
  addr  : DevAddr
  bytes : List Byte
  marks : List Nat
  shown : Bool
  under : List Byte
  underMarks : List Nat
  deriving DecidableEq, Repr

/-- A memory command under way (R259), with what R249 reports of it. -/
structure MemJob where
  tkt    : Ticket
  first  : Option Nat
  count  : Nat
  deriving DecidableEq, Repr

/-- Memory: bytes keyed by device address, the poisoned granules (base addresses, rising), the granules and words that hold an
error no read has found yet, the counters of R250, HBM_MAP (R257) and the adders and landing buffers. -/
structure Mem where
  cells     : List Host.Cell
  poison    : List Nat
  latentUe  : List Nat
  latentCe  : List Nat
  ce        : BitVec 32
  ue        : BitVec 32
  poisonRd  : BitVec 32
  hbmPending : BitVec 16
  hbmLive   : BitVec 16
  modeNext  : Bool
  mode      : Bool
  stackErrs : List Nat
  zeroing   : Bool
  jobs      : List MemJob
  groups    : List AddGroup
  landing   : List Landed
  deriving DecidableEq, Repr

/-! ### Tick, epoch and configuration (R209–R229, R325, R326, R331) -/

/-- RUN_STATE.STATE (R218). -/
inductive RunSt where
  | stopped | armed | running | halting
  deriving DecidableEq, Repr

/-- A scheduled halt (R220, R221): the tick at whose boundary it takes effect, its cause, and REMOTE. -/
structure Halt where
  target : Nat
  cause  : BitVec 4
  remote : Bool
  deriving DecidableEq, Repr

structure PendLaunch where
  tkt   : Ticket
  at_   : Nat
  entry : BitVec 32
  deriving DecidableEq, Repr

structure PendHalt where
  tkt : Ticket
  at_ : Nat
  deriving DecidableEq, Repr

/-- A staged entry (R325). -/
structure StageEntry where
  off   : Nat
  value : BitVec 64
  mask  : BitVec 64
  deriving DecidableEq, Repr

structure PendCommit where
  tkt     : Ticket
  at_     : Nat
  entries : List StageEntry
  deriving DecidableEq, Repr

structure PendEpoch where
  tkt : Ticket
  at_ : Nat
  deriving DecidableEq, Repr

/-- An extension announced for a target tick (R223). -/
structure PendExt where
  target : Nat
  ext    : Nat
  faddr  : FAddr
  face   : BitVec 7
  rank   : Nat
  deriving DecidableEq, Repr

/-- Time and run-state registers of the module (R213, R218, R226, R228, R229). `haltTick` is the whole tick of which HALT_TICK
shows the low 32 bits, `pastExt` holds the extensions of the ticks before the present one, latest first, and `haltTaken` says that
the halt's boundary has passed while a Face still runs (R221). `originDue` says that the first boundary of the Pit, into START_TICK at
ORIGIN_FRAME, is to come (R210). -/
structure TickRegs where
  frameCount  : BitVec 64
  localFrame  : Nat
  tickCount   : BitVec 64
  epochId     : BitVec 32
  launchAt    : BitVec 64
  haltTick    : BitVec 64
  remote      : Bool
  cause       : BitVec 4
  run         : RunSt
  haltTaken   : Bool
  ext         : Nat
  pastExt     : List Nat
  extKnown    : Nat
  pacerTick   : BitVec 32
  pacerFaddr  : FAddr
  pacerFace   : BitVec 7
  pacerExt    : BitVec 10
  odcPit      : BitVec 32
  odcModule   : BitVec 32
  notice      : Byte
  odcDue      : Bool
  startTick   : Nat
  originFrame : BitVec 64
  originDue   : Bool
  deriving DecidableEq, Repr

/-- Settings of the module: LK fields and the values an epoch fixes (R97, R213, R226, R229, R331, R276, R332), and AID.COMPAT (R148). -/
structure Cfg where
  tpCur       : BitVec 12
  tpNext      : BitVec 12
  fast        : Bool
  stallLimit  : Byte
  haltPolicy  : Bool
  clockCur    : BitVec 2
  clockNext   : BitVec 2
  powerCur    : BitVec 2
  powerNext   : BitVec 2
  keeperEn    : Bool
  keeperForced : Bool
  c1Min       : Byte
  c3Min       : Byte
  traceCtl    : BitVec 4
  traceBase   : BitVec 21
  traceSize   : BitVec 16
  traceHead   : BitVec 64
  hostWin     : BitVec 11
  wrIgn       : BitVec 32
  compat      : Bool
  deriving DecidableEq, Repr

/-- What waits for a boundary. -/
structure Sched where
  halts    : List Halt
  launch   : Option PendLaunch
  haltAts  : List PendHalt
  commits  : List PendCommit
  epoch    : Option PendEpoch
  clockLock : Option Ticket
  exts     : List PendExt
  staging  : List StageEntry
  swaps    : List (Ticket × Nat × List FaceId)
  unpair   : List Ticket
  deriving DecidableEq, Repr

/-- Pit membership (R280, R282, R260). `left` records each Pit the module left and the frame; `scrub` is the PIT_DESTROY
whose scrub runs, and `plans` are the CLOCK_PLAN.NEXT of the Pit's other members, as last told at an EPOCH_BEGIN (R26). -/
structure Pit where
  id     : PitId
  corner : FAddr
  sx     : BitVec 5
  sy     : BitVec 5
  sz     : BitVec 5
  rank   : BitVec 15
  left   : List (PitId × Nat)
  scrub  : Option Ticket
  plans  : List (BitVec 2)
  deriving DecidableEq, Repr

/-- Twin registers and digests (R235–R237). `parts` holds the parts of the partner's Face digests that have come,
`heard` is what the last exchange with a partner told, and `kind` with its fields the last
mismatch (R237). -/
structure Twin where
  paired     : Bool
  partner    : FAddr
  partnerPit : PitId
  lag        : BitVec 4
  firstTick  : BitVec 64
  kind       : BitVec 2
  face       : BitVec 7
  addrLo     : SpOff
  addrHi     : SpOff
  mine       : List (Nat × BitVec 64)
  theirs     : List (Nat × BitVec 64)
  parts      : List (Nat × List (BitVec 64))
  heard      : Option Peer
  deriving DecidableEq, Repr

/-! ### Streams (R185–R207) -/

/-- STATE codes of R191 but CLOSED, whose slot is free. -/
inductive StreamSt where
  | open_ | active | paused | exporting | moved
  deriving DecidableEq, Repr

/-- A request's piece: one chunk (R195, R199), already cut. -/
structure Chunk where
  len      : Nat
  inAddr   : DevAddr
  inline_  : List Byte
  outAddr  : DevAddr
  resets   : List Nat
  stateOut : Option DevAddr
  deriving DecidableEq, Repr

/-- An accepted STREAM_CHUNK: the chunks still to run, the ones run, and the steps done (R199, R207). -/
structure ChunkReq where
  tkt    : Ticket
  tick   : Nat
  split  : Bool
  todo   : List Chunk
  done   : Nat
  outs   : List Byte
  redo   : Option Nat
  deriving DecidableEq, Repr

/-- A dispatched chunk: its request's ticket, the chunk and the dispatch tick (R198). -/
structure InFlight where
  tkt      : Ticket
  split    : Bool
  chunk    : Chunk
  dispatch : Nat
  doneAt   : Nat
  deriving DecidableEq, Repr

/-- Progress of an export (R201): its target, whether the snapshot was taken, and the record. -/
structure Export where
  tkt    : Ticket
  at_    : Nat
  dest   : DevAddr
  faddr  : FAddr
  remote : Bool
  record : Option (List Byte)
  tick   : BitVec 64
  result : Option (Status × List Byte)
  written : Bool
  deriving DecidableEq, Repr

/-- A stream with its entry (R190) and its work. -/
structure StreamEnt where
  handle     : BitVec 16
  incarn     : BitVec 32
  state      : StreamSt
  aidOver    : Bool
  narPresent : Bool
  svcL       : Byte
  svcValid   : Bool
  cell       : List Byte
  stepCount  : BitVec 64
  chunks     : BitVec 32
  pit        : PitId
  lastL      : Byte
  spill      : Option DevAddr
  carryBytes : Nat
  initBytes  : Nat
  lastDisp   : BitVec 64
  queue      : List ChunkReq
  flight     : List InFlight
  waiting    : List Ticket
  closing    : Bool
  exports    : List Export
  lastRec    : Option (List Byte × BitVec 64)
  deriving DecidableEq, Repr

/-- Stream service state (R185, R189). A deferred export waits for its execute-at boundary; `owed` holds the STREAM_PAUSE and
STREAM_CLOSE that reply at the next boundary, and `formed` the replies to chunks, with their completion ticks, that leave then (R208). -/
structure Streams where
  slotK    : BitVec 5
  serve    : Bool
  spill    : List (BitVec 24 × BitVec 24)
  ents     : List StreamEnt
  incarn   : BitVec 32
  deferred : List (Ticket × Nat × CmdPacket)
  owed     : List Ticket
  formed   : List (Ticket × BitVec 32 × Status × List Byte)
  deriving DecidableEq, Repr

/-! ### Gradient reduction (R288–R312) -/

/-- A bucket definition (R288). -/
structure BucketDesc where
  wire      : BitVec 2
  shard     : Bool
  quar      : Bool
  prepass   : Bool
  maxalign  : Bool
  outfmt    : BitVec 2
  qw        : BitVec 2
  sizeQ     : Byte
  nfill     : BitVec 16
  fragLsb   : Int
  srcG      : Int
  scode     : BitVec 3
  src       : DevAddr
  dst       : DevAddr
  stage     : DevAddr
  stageBytes : Nat
  fbEntries : Nat
  fbAddr    : DevAddr
  srcSpall  : DevAddr
  digest    : BitVec 64
  deriving DecidableEq, Repr

/-- Formats of a unit in a ring, from narrow to wide; a fragment bucket stays in fragments (R288, R304). -/
inductive RingFmt where
  | bp8 | bp16 | posit32 | fragment
  deriving DecidableEq, Repr

/-- A unit of a bucket on its way: its bytes in the wire format, or in a wider format after a fallback (R304). `marks` holds the
poisoned elements, and 32 where the header is poisoned. -/
structure UnitVal where
  idx   : Nat
  fmt   : RingFmt
  bytes : List Byte
  marks : List Nat
  deriving DecidableEq, Repr

/-- A NaR origin candidate (R306). -/
structure Origin where
  unit  : Nat
  elem  : Nat
  faddr : FAddr
  kind  : Nat
  deriving DecidableEq, Repr

/-- A received segment packet (R298) and the tick at which it becomes visible. -/
structure Segment where
  phase  : BitVec 2
  ag     : Bool
  half   : Bool
  pre    : Bool
  fbk    : Bool
  step   : Nat
  first  : Nat
  nunit  : Nat
  src    : FAddr
  vis    : Nat
  body   : List Byte
  marks  : List Nat
  origin : Option Origin
  deriving DecidableEq, Repr

/-- Where one half of a pass stands (R294, R295): phase (0 X, 1 Y, 2 Z), all-gather or not, pre-pass or not, step, the tick at
which the step's segments are due, the ranges of units (start, length) of this phase and of those before it, the partials held,
the pre-pass bytes, the NaR candidates met, and the vector-engine cycles and mover bytes of the collective reservation that the step
has been given so far (R297). -/
structure HalfPos where
  phase    : Nat
  ag       : Bool
  pre      : Bool
  step     : Nat
  due      : Nat
  range    : List (Nat × Nat)
  units    : List UnitVal
  prebytes : List (Nat × Byte)
  cands    : List Origin
  past     : Bool
  paid     : Nat × Nat
  deriving DecidableEq, Repr

/-- State of a pass (R312 STATE; 0 is a bucket that is not defined). -/
inductive BucketSt where
  | unarmed | filling | running | prepass
  deriving DecidableEq, Repr

/-- A bucket with its pass. `ended` is the tick from which a delivery that is over is visible; `poisoned` the granules that the pass
read poisoned; `fallen` and `written` its delivered units that fell back, and all its delivered units; `broken` a pass whose rule
R293 was broken. -/
structure Bucket where
  id        : BitVec 12
  defn      : BucketDesc
  desc      : BucketDesc
  state     : BucketSt
  pass      : BitVec 32
  fills     : Nat
  fullTick  : BitVec 64
  full      : Bool
  endTick   : BitVec 64
  bytesSent : BitVec 64
  esc       : BitVec 32
  fallback  : BitVec 32
  quarCnt   : BitVec 32
  narOut    : BitVec 32
  fbLost    : BitVec 16
  stray     : BitVec 16
  mismatch  : BitVec 16
  fragWin   : BitVec 32
  fragOvf   : BitVec 32
  tkt       : Option Ticket
  half0     : HalfPos
  half1     : HalfPos
  segs      : List Segment
  origin    : Option Origin
  poisoned  : List Nat
  fallen    : List UnitVal
  written   : List Nat
  broken    : Bool
  ended     : Option Nat
  deriving DecidableEq, Repr

/-- NAR_ORIGIN (R307). -/
structure NarOrigin where
  kind   : Nat
  bucket : BitVec 12
  pass   : BitVec 32
  faddr  : FAddr
  elem   : Nat
  unit   : Nat
  deriving DecidableEq, Repr

/-- Reduction state of the module: buckets, NAR_ORIGIN, the counters of R311 and the totals of the tick in progress. -/
structure Coll where
  buckets  : List Bucket
  origin   : Option NarOrigin
  esc      : BitVec 32
  fallback : BitVec 32
  quar     : BitVec 32
  totEsc   : Nat
  totFb    : Nat
  totQuar  : Nat
  deriving DecidableEq, Repr

/-! ### Fabric (R261–R287) -/

/-- LINK_STATE[p].STATE (R264). -/
inductive LinkSt where
  | down | training | hello | up | mismatch | miswired | failed | disabled
  deriving DecidableEq, Repr

/-- One Haul port: LINK_STATE, counters, send queues by class, replay buffer, receive state and marker times. `own0` holds the class-0
flits of the module itself that wait for the next frame (R277), `sentC0` says that this frame has had its own, `nak` that the
next flit asks for a replay, `fails` how often in a row the flit that is due has failed here, `naks` how often in a row the neighbour has
asked for the same flit, and `resend` what is left of a replay asked of this port (R263). `nbrMaster` is the master the neighbour follows, an
address past the torus until a marker names one. -/
structure Port where
  state    : LinkSt
  adminDown : Bool
  nbrFaddr : FAddr
  nbrValid : Bool
  nbrPort  : BitVec 3
  nbrVer   : Byte
  linkVer  : Byte
  retry    : BitVec 32
  downs    : BitVec 32
  q0       : List Flit
  q1       : List Flit
  q2       : List Flit
  q3       : List Flit
  own0     : List Flit
  lastVc   : BitVec 4
  used1    : Nat
  used3    : Nat
  sentC0   : Bool
  txSeq    : BitVec 12
  replay   : List Flit
  resend   : List Flit
  rxSeq    : BitVec 12
  rxValid  : Bool
  discard  : Bool
  fails    : Nat
  naks     : Nat
  nak      : Bool
  rxPart   : List Flit
  nbrTime  : Bool
  nbrDepth : BitVec 6
  nbrMaster : FAddr
  lastSent : Int
  prevSent : Int
  lastRecv : Int
  deriving DecidableEq, Repr

/-- A route image (R270). -/
structure RouteImage where
  id      : BitVec 32
  pitHops : Byte
  uni     : List Byte
  bc      : List Byte
  deriving DecidableEq, Repr

/-- FAB_ID, TIME_STATE, routes, counters and the packets inside the module (R268, R271, R285, R287): `own` those it has formed and
not yet routed, `ingress` those received and not yet routed, `delivered` those routed to it. `c0Flag` says that a class-0 queue
has held more than 400 packets in this frame (R278). -/
structure Fabric where
  dimZ      : BitVec 5
  dimY      : BitVec 5
  dimX      : BitVec 5
  valid     : Bool
  faddr     : FAddr
  offset    : BitVec 16
  depth     : BitVec 6
  parent    : Option PortId
  masterAct : Bool
  master    : Bool
  holdover  : Bool
  locked    : Bool
  maxFrame  : BitVec 64
  route     : Option RouteImage
  staged    : Option RouteImage
  pitDrop   : BitVec 32
  unreach   : BitVec 32
  hopDrop   : BitVec 32
  malformed : BitVec 32
  c0Late    : BitVec 32
  c0Over    : BitVec 32
  c0Flag    : Bool
  own       : List Packet
  ingress   : List Packet
  delivered : List Packet
  ports     : List Port
  deriving DecidableEq, Repr

/-! ### Host interface (R313–R317) -/

/-- QCFG[q] (R315) and the queue's last doorbells and held replies (R316). -/
structure Queue where
  sqBase  : BitVec 64
  cqBase  : BitVec 64
  shadow  : BitVec 64
  pitLock : PitId
  msix    : Byte
  sqLog   : BitVec 4
  cqLog   : BitVec 4
  error   : Bool
  enable  : Bool
  cqTail  : BitVec 32
  sqHead  : BitVec 32
  sqTail  : BitVec 32
  cqHead  : BitVec 32
  held    : List Reply
  deriving DecidableEq, Repr

/-- The Derrick's command state: commands accepted and not finally answered, commands that wait (opcode number and
packet), the queue pairs with the next one of the fixed rotation (R317), and the host's memory as the module reads and writes it over PCIe. -/
structure HostIf where
  queues      : List Queue
  outstanding : List Ticket
  waiting     : List (Nat × CmdPacket)
  nextQ       : QueueId
  hostMem     : List Host.Cell
  deriving DecidableEq, Repr

/-! ### Firmware and flash (R352–R364, R329, R342) -/

/-- A firmware slot: IMAGE_ID, the revisions and SHA-384 hashes of its four components (Weighbridge, Derrick, microcode, function-table
set), the SHA-384 of the slot, and the rounding revision (R353, R359); an empty slot has none. -/
structure FwSlot where
  id     : BitVec 32
  revs   : BitVec 64
  hashes : List (BitVec 384)
  sha    : BitVec 384
  round  : Byte
  deriving DecidableEq, Repr

/-- The persistent settings of one half of the settings store: the image whose format it has, the relay setting, the management network
configuration, and the settings that the facility has made persistent (R361; log entry 155). -/
structure Settings where
  image    : BitVec 32
  relay    : Bool
  network  : List Byte
  facility : List Byte
  deriving DecidableEq, Repr

structure Piece where
  idx   : Nat
  kind  : Byte
  bytes : List Byte
  deriving DecidableEq, Repr

structure Staged where
  id     : BitVec 32
  total  : Nat
  pieces : List Piece
  deriving DecidableEq, Repr

/-- A piece buffer of R356: key, the datagrams present, oldest fill last. -/
structure PieceBuf where
  id    : BitVec 32
  piece : BitVec 32
  parts : List (Nat × List Byte)
  deriving DecidableEq, Repr

/-- Firmware state in the standby flash and the Weighbridge (R357–R364). `half0` and `half1` are the two halves of the settings store
(R361); `runHalf` names the one in use. -/
structure Fw where
  runSlot   : Bool
  slotA     : Option FwSlot
  slotB     : Option FwSlot
  otherBad  : Bool
  awaiting  : Bool
  fallbackDue : Bool
  fellBack  : Bool
  lastResult : BitVec 16
  reason    : Byte
  boots     : Nat
  opMin     : Nat
  staged    : Option Staged
  bufs      : List PieceBuf
  relay     : Bool
  relaySent : BitVec 32
  half0     : Option Settings
  half1     : Option Settings
  runHalf   : Bool
  prevReady : BitVec 64
  prevFaces : List FaceSt
  lastReady : BitVec 64
  lastFaces : List FaceSt
  deriving DecidableEq, Repr

/-- A Face's repair record (R93, R342, R346): groups bypassed and pending, and whether it is retired, in the field or at
shipment. -/
structure Repair where
  bypass  : BitVec 16
  pending : BitVec 16
  retired : Bool
  shipped : Bool
  deriving DecidableEq, Repr

/-- The boot block, with the boot code and the key that checks package signatures (R352), MOD_ID data, repair records and silicon
identity (R230, R329, R265). -/
structure Flash where
  bootCode : List Byte
  bootKey  : List Byte
  grade    : BitVec 4
  boardRev : BitVec 16
  serial   : List Byte
  part     : List Byte
  stepping : BitVec 4
  chassis  : BitVec 32
  slot     : Byte
  repairs  : List Repair
  deriving DecidableEq, Repr

/-! ### Power, cooling and readiness (R340–R351, R366–R381) -/

/-- Readiness, pins and protection. `tries` counts the failed trainings of each stack, `latched` lists the sensors whose excursion
has raised its record, `thermHold` and `leakHold` bar main power after a thermal stop and a leak, `leakOwn` and `leakExt` say that the
rope is wet and that another party asserts LEAK_N, and `sag` is the condition of R349. -/
structure Power where
  standby     : Bool
  weighbridge : Bool
  main        : Bool
  ramping     : Bool
  hub         : Bool
  derrick     : Bool
  host        : Bool
  dies        : BitVec 8
  trained     : BitVec 16
  tries       : List Nat
  perstN      : Bool
  sag         : Bool
  switchOpen  : Bool
  stopStandby : Bool
  stopThermal : Bool
  stopLeak    : Bool
  leakOwn     : Bool
  leakExt     : Bool
  leakHold    : Bool
  thermHold   : Bool
  latched     : List Nat
  block       : Readings
  chainAddr   : Byte
  deriving DecidableEq, Repr

/-- Event counters of the module (R47, R121, R155). -/
structure Counters where
  infIn     : BitVec 32
  nanIn     : BitVec 32
  convRange : BitVec 32
  convNar   : BitVec 32
  bpBad     : BitVec 32
  scaleClamp : BitVec 32
  spallFull : BitVec 32
  spallMiss : BitVec 32
  fnFlush   : BitVec 32
  fnDomain  : BitVec 32
  fnNotable : BitVec 32
  fnEmpty   : BitVec 32
  deriving DecidableEq, Repr

/-- A BIST_RUN under way (R344). -/
structure BistJob where
  tkt   : Ticket
  kind  : Nat
  index : Nat
  faces : List FaceId
  deriving DecidableEq, Repr

/-- A TABLE_LOAD whose writes are under way (R142). -/
structure LoadJob where
  tkt   : Ticket
  faces : List FaceId
  slot  : Fin 8
  table : Table
  clear : Bool
  cz1   : Bool
  deriving DecidableEq, Repr

/-- The state of the module. `free` numbers the undefined bytes written so far (the model's own field, not the manual's);
`out` is what has left the module, oldest first; `pending` is the queue of commands that wait. -/
structure State where
  tk    : TickRegs
  cfg   : Cfg
  sched : Sched
  pit   : Pit
  twin  : Twin
  faces : List Face
  mem   : Mem
  strm  : Streams
  coll  : Coll
  fab   : Fabric
  host  : HostIf
  fw    : Fw
  flash : Flash
  pwr   : Power
  errs  : Errs
  cnt   : Counters
  bists : List BistJob
  loads : List LoadJob
  free  : Nat
  out   : List OutEvent
  pending : List Instr
  deriving DecidableEq, Repr

/-- Why a step stops with a fault. No rule of the manual stops the module: no meaning raises this fault. -/
inductive Fault where
  /-- Raised by no meaning: the manual halts Pits, Faces and regulators, never the module as a whole. Safe. -/
  | unreachable
  deriving DecidableEq, Repr

/-- Why a step has no meaning. -/
inductive Refusal where
  /-- A row without a meaning; raised by the arms of exec that have none. Safe. -/
  | notModelled (mnemonic : String)
  /-- An instruction operand that PROG_VERIFY refuses by the rule of this number, so that no loaded program holds it (R327: PROG_LOAD
  loads only an image that passes every check); raised by `issue` for the instructions of a Face. Safe. -/
  | programRefused (rule : Nat)
  deriving DecidableEq, Repr

/-! ### Reset: the module without standby power, just before power is first applied, except that STANDBY reads 1 -/

def Totals.zero : Totals := ⟨0, 0, 0, 0, 0, 0, 0, 0, 0, 0, 0, 0⟩

def Stationary.empty : Stationary := ⟨.posit16, 128, [], [], [], []⟩

/-- A quire that holds 0 and no flag. -/
def Quire.zero : Quire := ⟨0, false, false, false, false, false, false, none, 0⟩

def QuireSet.empty : QuireSet := ⟨[], [], none⟩

def Bank.empty : Bank := ⟨List.replicate 8 none, false, [], []⟩

/-- The bank state that R146 gives for power-on and after PIT_DESTROY. -/
def FnBanks.reset : FnBanks := ⟨Bank.empty, Bank.empty, false, true, false, none⟩

def FaceUnits.reset : FaceUnits :=
  ⟨Stationary.empty, Stationary.empty, false, QuireSet.empty, QuireSet.empty, [], [], FnBanks.reset, [], [], []⟩

def Face.reset : Face :=
  { state := .off, cause := 0, retirePend := false, bypassMap := 0, pendingMap := 0, bistPassed := false, prior := .off,
    maxOver := 0, minSlack := 0xFFFFFF, tot := Totals.zero, prog := none, running := false, slip := 0, stall := none,
    held := [], notableSeen := false, tickBanks := [], units := FaceUnits.reset, digests := [] }

def Mem.reset : Mem :=
  { cells := [], poison := [], latentUe := [], latentCe := [], ce := 0, ue := 0, poisonRd := 0,
    hbmPending := 0, hbmLive := 0, modeNext := false, mode := false, stackErrs := List.replicate 16 0,
    zeroing := false, jobs := [], groups := [], landing := [] }

def TickRegs.reset : TickRegs :=
  { frameCount := 0, localFrame := 0, tickCount := 0, epochId := 0, launchAt := 0, haltTick := 0, remote := false, cause := 0,
    run := .stopped, haltTaken := false, ext := 0, pastExt := [], extKnown := 0, pacerTick := 0, pacerFaddr := 0, pacerFace := 0,
    pacerExt := 0, odcPit := 0, odcModule := 0, notice := 1, odcDue := false, startTick := 0, originFrame := 0, originDue := false }

def Cfg.reset : Cfg :=
  { tpCur := 0x028, tpNext := 0x028, fast := false, stallLimit := 0x10, haltPolicy := false, clockCur := 2, clockNext := 2,
    powerCur := 2, powerNext := 2, keeperEn := true, keeperForced := false, c1Min := 0x60, c3Min := 0x02, traceCtl := 0,
    traceBase := 0, traceSize := 0, traceHead := 0, hostWin := 0, wrIgn := 0,
    compat := false }

def Sched.reset : Sched := ⟨[], none, [], [], none, none, [], [], [], []⟩

def Pit.reset : Pit := ⟨0, 0, 0, 0, 0, 0, [], none, []⟩

def Twin.reset : Twin := ⟨false, 0, 0, 2, 0, 0, 0, 0, 0, [], [], [], none⟩

def Streams.reset : Streams := ⟨0x10, false, List.replicate 8 (0, 0), [], 1, [], [], []⟩

def Coll.reset : Coll := ⟨[], none, 0, 0, 0, 0, 0, 0⟩

def Port.reset : Port :=
  { state := .down, adminDown := false, nbrFaddr := 0, nbrValid := false, nbrPort := 0, nbrVer := 0, linkVer := 0, retry := 0,
    downs := 0, q0 := [], q1 := [], q2 := [], q3 := [], own0 := [], lastVc := 0, used1 := 0, used3 := 0, sentC0 := false, txSeq := 0,
    replay := [], resend := [], rxSeq := 0, rxValid := false, discard := false, fails := 0, naks := 0, nak := false, rxPart := [], nbrTime := false,
    nbrDepth := 0x3F, nbrMaster := 0x7FFF, lastSent := 0, prevSent := 0, lastRecv := 0 }

def Fabric.reset : Fabric :=
  { dimZ := 0, dimY := 0, dimX := 0, valid := false, faddr := 0, offset := 0, depth := 0x3F, parent := none,
    masterAct := false, master := false, holdover := false, locked := false, maxFrame := 0, route := none, staged := none,
    pitDrop := 0, unreach := 0, hopDrop := 0, malformed := 0, c0Late := 0, c0Over := 0, c0Flag := false, own := [], ingress := [], delivered := [],
    ports := List.replicate 6 Port.reset }

/-- QCFG[q] at reset; MSIX resets to q (R315). -/
def Queue.reset (q : Nat) : Queue :=
  { sqBase := 0, cqBase := 0, shadow := 0, pitLock := 0, msix := BitVec.ofNat 8 q, sqLog := 6, cqLog := 6, error := false,
    enable := false, cqTail := 0, sqHead := 0, sqTail := 0, cqHead := 0, held := [] }

def HostIf.reset : HostIf := ⟨(List.range 64).map Queue.reset, [], [], 0, []⟩

/-- The firmware as shipped: slot A runs a confirmed image (log entry 4 names the figures). -/
def Fw.reset : Fw :=
  { runSlot := false, slotA := some ⟨1, 0, List.replicate 4 0, 0, 0⟩, slotB := none, otherBad := false, awaiting := false, fallbackDue := false,
    fellBack := false, lastResult := 0xFFFF, reason := 0, boots := 0, opMin := 0, staged := none, bufs := [], relay := false,
    relaySent := 0, half0 := some ⟨1, false, [], []⟩, half1 := none, runHalf := false, prevReady := 0, prevFaces := [], lastReady := 0,
    lastFaces := [] }

/-- The flash of a Grade A module without repairs (log entry 4). -/
def Flash.reset : Flash :=
  { bootCode := [], bootKey := [], grade := 0, boardRev := 0, serial := zeros 16,
    part := [0x4D, 0x39, 0x36, 0x2D, 0x41, 0x20, 0x20, 0x20], stepping := 0, chassis := 0, slot := 0,
    repairs := List.replicate 96 ⟨0, 0, false, false⟩ }

def Readings.zero : Readings := ⟨0, 0, 0, 0, List.replicate 30 0, false, false⟩

/-- Standby power is present and nothing runs yet (R330: STANDBY resets to 1, every other bit to 0). -/
def Power.reset : Power :=
  { standby := true, weighbridge := false, main := false, ramping := false, hub := false, derrick := false, host := false,
    dies := 0, trained := 0, tries := List.replicate 16 0, perstN := false, sag := false, switchOpen := false,
    stopStandby := false, stopThermal := false, stopLeak := false, leakOwn := false, leakExt := false, leakHold := false,
    thermHold := false, latched := [], block := Readings.zero, chainAddr := 0x7F }

def Errs.reset : Errs := ⟨[], 0, [], none, none, false, false, 0, false, false⟩

def Counters.zero : Counters := ⟨0, 0, 0, 0, 0, 0, 0, 0, 0, 0, 0, 0⟩

/-- The module right after reset: standby power present, every register at the value the manual gives, memory with nothing
listed (log entries 1 to 4 name the values the manual does not give). -/
def State.reset : State :=
  { tk := TickRegs.reset, cfg := Cfg.reset, sched := Sched.reset, pit := Pit.reset, twin := Twin.reset,
    faces := List.replicate 96 Face.reset, mem := Mem.reset, strm := Streams.reset, coll := Coll.reset, fab := Fabric.reset,
    host := HostIf.reset, fw := Fw.reset, flash := Flash.reset, pwr := Power.reset, errs := Errs.reset,
    cnt := Counters.zero, bists := [], loads := [], free := 0, out := [], pending := [] }

end Sys2Proof.Machine
end

