-- ==== Sys2Proof/Machine/Memory.lean ====
section
/-! DEFINITION. The memories of the module as one sparse list of bytes by device address: the address map (R238), the HBM
decode (R243), poison and undiscovered errors by granule (R247, R248). -/

namespace Sys2Proof.Machine

/-! ### The device address map -/

def hbmEnd : Nat := 0xC000000000
def spBase : Nat := 0x10000000000
def spSize : Nat := 0x8000000
def pileBase : Nat := 0x10400000000
def pileSize : Nat := 0x20000000
def csrBase : Nat := 0x11000000000
def gib : Nat := 2 ^ 30

/-- Where a device address lies (R238). -/
inductive Region where
  | hbm (stack off : Nat)
  | scratchpad (face off : Nat)
  | stockpile (die off : Nat)
  | csr (off : Nat)
  | unmapped
  deriving DecidableEq, Repr

def liveStacks (live : BitVec 16) : List Nat := (List.range 16).filter fun i => live.getLsbD i

/-- The decode of R243: the stack and the offset in it. -/
def hbmDecode (dieLocal : Bool) (live : BitVec 16) (a : Nat) : Option (Nat × Nat) :=
  if dieLocal then
    let d := a / (96 * gib)
    let w := a % (96 * gib)
    match live.getLsbD (2 * d), live.getLsbD (2 * d + 1) with
    | true, true => some (2 * d + w / 2 ^ 12 % 2, w / 2 ^ 13 * 2 ^ 12 + w % 4096)
    | true, false => if w < 48 * gib then some (2 * d, w) else none
    | false, true => if w < 48 * gib then some (2 * d + 1, w) else none
    | false, false => none
  else
    let l := liveStacks live
    let g := a / 2 ^ 12
    if a < l.length * (48 * gib) then
      (l[g % l.length]?).map fun st => (st, g / l.length * 2 ^ 12 + a % 4096)
    else none

/-- R238 and R243. -/
def Mem.region (m : Mem) (a : Nat) : Region :=
  if a < hbmEnd then
    match hbmDecode m.mode m.hbmLive a with
    | some (st, o) => .hbm st o
    | none => .unmapped
  else if spBase ≤ a ∧ a < spBase + 96 * spSize then .scratchpad ((a - spBase) / spSize) ((a - spBase) % spSize)
  else if pileBase ≤ a ∧ a < pileBase + 8 * pileSize then .stockpile ((a - pileBase) / pileSize) ((a - pileBase) % pileSize)
  else if csrBase ≤ a ∧ a < csrBase + 0x10000000 then .csr (a - csrBase)
  else .unmapped

def Region.isMem : Region → Bool
  | .hbm .. | .scratchpad .. | .stockpile .. => true
  | _ => false

def Region.isHbm : Region → Bool
  | .hbm .. => true
  | _ => false

/-- Mapped capacity in GiB (R257, CAP_GIB). -/
def capGib (dieLocal : Bool) (live : BitVec 16) : Nat :=
  if dieLocal then
    ((List.range 8).map fun d =>
      match live.getLsbD (2 * d), live.getLsbD (2 * d + 1) with
      | true, true => 96 | false, false => 0 | _, _ => 48).foldl (· + ·) 0
  else 48 * (liveStacks live).length

/-- Every address of an HBM range is mapped. In global mode the mapped space is contiguous; in die-local mode each die's window
is mapped from its start, so the range's piece in each window is mapped when its last byte there is. -/
def Mem.hbmRangeMapped (m : Mem) (a n : Nat) : Bool :=
  if m.mode then
    (List.range 8).all fun d =>
      let lo := Nat.max a (d * (96 * gib))
      let hi := Nat.min (a + n) ((d + 1) * (96 * gib))
      decide (hi ≤ lo) || ((m.region lo).isHbm && (m.region (hi - 1)).isHbm)
  else (m.region a).isHbm && (m.region (a + n - 1)).isHbm

/-- A nonempty range lies wholly in HBM, in the scratchpads or in the Stockpiles, and every address of it is mapped (R238, R239). -/
def Mem.rangeOk (m : Mem) (a n : Nat) : Bool :=
  decide (0 < n) &&
  (if a < hbmEnd then decide (a + n ≤ hbmEnd) && m.hbmRangeMapped a n
   else match m.region a, m.region (a + n - 1) with
    | .scratchpad .., .scratchpad .. => true
    | .stockpile .., .stockpile .. => true
    | _, _ => false)

/-- The same for HBM or one Stockpile only, as memory commands need it (R324). -/
def Mem.cmdRangeOk (m : Mem) (a n : Nat) : Bool :=
  m.rangeOk a n && (match m.region a, m.region (a + n - 1) with
    | .scratchpad .., _ => false
    | .stockpile d _, .stockpile d' _ => d == d'
    | _, _ => true)

/-- Bytes of a Stockpile's first two fixed regions: the stream table and the state slots (R242). -/
def fixedPile (slotK : Nat) : Nat := 0x80000 + slotK * 0x1000000

/-- A range that touches the stream table or the state slots of a Stockpile (R242). -/
def touchesFixed (slotK a n : Nat) : Bool :=
  (List.range 8).any fun d => decide (a < pileBase + d * pileSize + fixedPile slotK ∧ pileBase + d * pileSize < a + n)

/-! ### Granules -/

def granSize (a : Nat) : Nat := if a < hbmEnd then 64 else 8

/-- The base of the poison granule of an address (R247). -/
def gran (a : Nat) : Nat := a - a % granSize a

/-- The bases of the granules that a range of bytes touches. -/
def grans (a n : Nat) : List Nat :=
  if n = 0 then []
  else (List.range ((a + n - 1 - gran a) / granSize a + 1)).map fun i => gran a + i * granSize a

/-- A granule overlaps a range. -/
def granHits (g a n : Nat) : Bool := decide (g < a + n) && decide (a < g + granSize g)

/-! ### Bytes -/

abbrev Cells := List Host.Cell

/-- The bytes from `a`, read in one pass over the list; an unlisted address reads 0 (log entry 2). -/
def readFrom : Nat → Cells → Nat → List Byte
  | 0, _, _ => []
  | n + 1, [], a => 0 :: readFrom n [] (a + 1)
  | n + 1, (k, v) :: r, a => if k = a then v :: readFrom n r (a + 1) else 0 :: readFrom n ((k, v) :: r) (a + 1)

def cellsBelow (a : Nat) (c : Cells) : Cells := c.filter fun p => decide (p.1 < a)
def cellsFrom (a : Nat) (c : Cells) : Cells := c.filter fun p => decide (a ≤ p.1)

def Cells.read (c : Cells) (a n : Nat) : List Byte := readFrom n (cellsFrom a c) a

def Cells.readByte (c : Cells) (a : Nat) : Byte := sget 0 c a

/-- New bytes with their addresses, zeros left out, so that the list stays canonical. -/
def listed : Nat → List Byte → Cells
  | _, [] => []
  | a, b :: r => if b = 0 then listed (a + 1) r else (a, b) :: listed (a + 1) r

/-- The one write of bytes: `bytes` from address `a`. -/
def Cells.write (c : Cells) (a : Nat) (bytes : List Byte) : Cells :=
  cellsBelow a c ++ listed a bytes ++ cellsFrom (a + bytes.length) c

/-- Zeros over a range. -/
def Cells.zero (c : Cells) (a n : Nat) : Cells := cellsBelow a c ++ cellsFrom (a + n) c

/-! ### Element writes -/

/-- One element to be written: bit address, width, value, and whether it is written with the poison pattern (R248). -/
structure BitWrite where
  addr  : Nat
  width : Nat
  val   : Nat
  mark  : Bool
  deriving DecidableEq, Repr

/-- Write one element: whole bytes, or a half-byte or a bit within its byte (R99). -/
def Cells.writeElem (c : Cells) (w : BitWrite) : Cells :=
  if w.width % 8 = 0 then c.write (w.addr / 8) (leBytes (w.width / 8) w.val)
  else
    let old := (c.readByte (w.addr / 8)).toNat
    let sh := w.addr % 8
    let keep := old - bits old (sh + w.width - 1) sh * 2 ^ sh
    c.write (w.addr / 8) [BitVec.ofNat 8 (keep + w.val % 2 ^ w.width * 2 ^ sh)]

/-- All eight bits of byte `b` are written. -/
def byteCovered (ws : List BitWrite) (b : Nat) : Bool :=
  ws.any (fun w => decide (w.addr ≤ 8 * b) && decide (8 * b + 8 ≤ w.addr + w.width))
    || (List.range 8).all fun i => ws.any fun w => decide (w.addr ≤ 8 * b + i) && decide (8 * b + i < w.addr + w.width)

def granCovered (ws : List BitWrite) (g : Nat) : Bool := (List.range (granSize g)).all fun i => byteCovered ws (g + i)

/-- The granules that elements written with the poison pattern lie in. -/
def markedGrans (ws : List BitWrite) : List Nat :=
  (ws.filter (·.mark)).flatMap fun w => grans (w.addr / 8) ((w.addr + w.width - 1) / 8 - w.addr / 8 + 1)

/-- A write of elements as one operation: whole granules lose their poison and any undiscovered error, partial ones keep them,
and elements written with the poison pattern poison their granules (R248). -/
def Mem.write (m : Mem) (ws : List BitWrite) : Mem :=
  { m with
    cells := ws.foldl Cells.writeElem m.cells
    poison := (markedGrans ws).foldl (fun l g => nins g l) (m.poison.filter fun g => !granCovered ws g)
    latentUe := m.latentUe.filter fun g => !granCovered ws g
    latentCe := m.latentCe.filter fun g => !granCovered ws g }

/-- A write of consecutive bytes, with the granules in `marks` left poisoned (R248). -/
def Mem.writeBytes (m : Mem) (a : Nat) (bytes : List Byte) (marks : List Nat) : Mem :=
  let whole := fun g => decide (a ≤ g) && decide (g + granSize g ≤ a + bytes.length)
  { m with
    cells := Cells.write m.cells a bytes
    poison := marks.foldl (fun l g => nins g l) (m.poison.filter fun g => !whole g)
    latentUe := m.latentUe.filter fun g => !whole g
    latentCe := m.latentCe.filter fun g => !whole g }

/-- Zeros with fresh check bits over a range (R259, R260). -/
def Mem.scrub (m : Mem) (a n : Nat) : Mem :=
  let whole := fun g => decide (a ≤ g) && decide (g + granSize g ≤ a + n)
  { m with
    cells := Cells.zero m.cells a n
    poison := m.poison.filter fun g => !whole g
    latentUe := m.latentUe.filter fun g => !whole g
    latentCe := m.latentCe.filter fun g => !whole g }

/-- All memory of the module as it stands after a loss of main power: nothing listed. -/
def Mem.lose (m : Mem) : Mem := { m with cells := [], poison := [], latentUe := [], latentCe := [] }

/-! ### Reads -/

def Mem.bytes (m : Mem) (a n : Nat) : List Byte := Cells.read m.cells a n
def Mem.nat (m : Mem) (a n : Nat) : Nat := leNat (m.bytes a n)

/-- A read of the range meets a granule that is poisoned, or one whose undiscovered error the read finds (R248). -/
def Mem.marked (m : Mem) (a n : Nat) : Bool :=
  m.poison.any (granHits · a n) || m.latentUe.any (granHits · a n)

/-- The granules of a range that a read delivers with the mark, rising. -/
def Mem.markedIn (m : Mem) (a n : Nat) : List Nat :=
  m.latentUe.foldl (fun l g => if granHits g a n then nins g l else l) (m.poison.filter (granHits · a n))

/-- `width` bits at a bit address (R99). -/
def Mem.bitsAt (m : Mem) (addr width : Nat) : Nat :=
  if width % 8 = 0 then m.nat (addr / 8) (width / 8)
  else (m.nat (addr / 8) 1) / 2 ^ (addr % 8) % 2 ^ width

/-- The invariant of memory: the list is in its canonical form (log entry 2). -/
def Memory.wf (m : Mem) : Bool := swf (0 : Byte) m.cells

end Sys2Proof.Machine
end

