-- ==== Sys2Proof/Machine/Ops.lean ====
section
/-! DEFINITION. The shared operations on the module's state: Faces, memory reads and writes with poison and twin digests,
error records, trace, halts and replies. -/

namespace Sys2Proof.Machine

abbrev Result := Host.Outcome State Fault Refusal

/-! ### Faces -/

def State.face (s : State) (f : FaceId) : Face := s.faces.getD f.val Face.reset

def State.updFace (s : State) (f : FaceId) (g : Face → Face) : State := { s with faces := lmod g s.faces f.val }

def State.updUnits (s : State) (f : FaceId) (g : FaceUnits → FaceUnits) : State :=
  s.updFace f fun x => { x with units := g x.units }

def allFaces : List FaceId := List.finRange 96

/-- READY or BYPASSED: every rule that asks for a READY Face accepts a BYPASSED one (R330). -/
def FaceSt.inService : FaceSt → Bool
  | .ready | .bypassed => true
  | _ => false

def FaceSt.code : FaceSt → Nat
  | .off => 0 | .testing => 1 | .ready => 2 | .bypassed => 3 | .retired => 4 | .faulty => 5

def popcount16 (v : BitVec 16) : Nat := ((List.range 16).filter fun i => v.getLsbD i).length

/-- Lanes of a Face's Bench: 8 columns less for each bypassed group of 16 (R92, R93). -/
def Face.width (x : Face) : Nat := 128 - 8 * popcount16 x.bypassMap

def State.running (s : State) : Bool :=
  match s.tk.run with
  | .running | .halting => true
  | _ => false

/-- Whether an instruction of Face f can issue: its Pit runs or finishes its last tick, the Face is in service, and no stall
holds it (R217, R221, R345; log entry 30). -/
def State.issues (s : State) (f : FaceId) : Bool :=
  s.running && (s.face f).state.inService && (s.face f).stall.isNone

/-- The tick whose program Face f runs: a Face that has slipped runs one of an earlier tick (R222). -/
def State.progTick (s : State) (f : FaceId) : BitVec 64 := s.tk.tickCount - BitVec.ofNat 64 (s.face f).slip

/-! ### Counting in a tick -/

def Totals.plus (a b : Totals) : Totals :=
  { infIn := a.infIn + b.infIn, nanIn := a.nanIn + b.nanIn, convRange := a.convRange + b.convRange,
    convNar := a.convNar + b.convNar, bpBad := a.bpBad + b.bpBad, scaleClamp := a.scaleClamp + b.scaleClamp,
    spallFull := a.spallFull + b.spallFull, spallMiss := a.spallMiss + b.spallMiss, fnFlush := a.fnFlush + b.fnFlush,
    fnDomain := a.fnDomain + b.fnDomain, fnNotable := a.fnNotable + b.fnNotable, fnEmpty := a.fnEmpty + b.fnEmpty }

/-- The totals of a Face's tick grow (R47, R121, R155). -/
def State.count (s : State) (f : FaceId) (t : Totals) : State := s.updFace f fun x => { x with tot := x.tot.plus t }

/-! ### The torus and the Pit's block in it (R223, R268, R274, R280). Axes 0, 1, 2 are x, y, z -/

/-- Coordinate of a fabric address on an axis (R268). -/
def coord (a : FAddr) (i : Nat) : Nat := a.toNat / 32 ^ i % 32

def addrOf (x y z : Nat) : FAddr := BitVec.ofNat 15 (x + 32 * y + 1024 * z)

def State.pitSize (s : State) : Nat := (s.pit.sx.toNat + 1) * (s.pit.sy.toNat + 1) * (s.pit.sz.toNat + 1)

/-- Torus size on an axis (R268). -/
def State.dim (s : State) (i : Nat) : Nat :=
  (match i with | 0 => s.fab.dimX | 1 => s.fab.dimY | _ => s.fab.dimZ).toNat + 1

/-- Block size on an axis (R280). -/
def Pit.size (p : Pit) (i : Nat) : Nat := (match i with | 0 => p.sx | 1 => p.sy | _ => p.sz).toNat + 1

/-- Offset of a coordinate from another along a ring of n, in the positive direction. -/
def ringOff (n a b : Nat) : Nat := (b + 32 * n - a) % n

/-- Offset of an address from the block's corner on an axis. -/
def State.blockOff (s : State) (a : FAddr) (i : Nat) : Nat := ringOff (s.dim i) (coord s.pit.corner i) (coord a i)

/-- The address lies in the block of the module's Pit. -/
def State.inBlock (s : State) (a : FAddr) : Bool :=
  s.pit.id != 0 && [0, 1, 2].all fun i => decide (coord a i < s.dim i) && decide (s.blockOff a i < s.pit.size i)

/-- Pit rank of a member (R223). -/
def State.rankOf (s : State) (a : FAddr) : Nat :=
  s.blockOff a 0 + s.pit.size 0 * (s.blockOff a 1 + s.pit.size 1 * s.blockOff a 2)

/-- The member of a Pit rank (R274). -/
def State.memberAt (s : State) (r : Nat) : FAddr :=
  let c := fun i o => (coord s.pit.corner i + o) % s.dim i
  addrOf (c 0 (r % s.pit.size 0)) (c 1 (r / s.pit.size 0 % s.pit.size 1)) (c 2 (r / s.pit.size 0 / s.pit.size 1))

/-- Members of the Pit in rank order; none without a Pit. -/
def State.members (s : State) : List FAddr := if s.pit.id = 0 then [] else (List.range s.pitSize).map s.memberAt

/-! ### Output -/

def State.emit (s : State) (e : OutEvent) : State := { s with out := s.out ++ [e] }

/-! ### Trace (R332) -/

/-- A trace record is written into the ring when its enable is 1 and the ring has a size (R332). -/
def State.trace (s : State) (enable : Nat) (code : Nat) (data : List Nat) : State :=
  if s.cfg.traceCtl.getLsbD enable && decide (s.cfg.traceSize ≠ 0) then
    let size := s.cfg.traceSize.toNat * 2 ^ 20
    let head := s.cfg.traceHead.toNat % size
    let rec_ := leBytes 8 s.tk.tickCount.toNat ++ leBytes 2 code ++ leBytes 2 (Config.traceSource code data).toNat ++ zeros 4
      ++ leBytes 16 (Config.traceData code data).toNat
    { s with
      mem := s.mem.writeBytes (s.cfg.traceBase.toNat * 2 ^ 20 + head) rec_ []
      cfg := { s.cfg with traceHead := BitVec.ofNat 64 ((head + 32) % size) } }
  else s

/-! ### Halts (R220, R221) -/

/-- The module's Pit can halt: it is ARMED, RUNNING, or HALTING before its halt boundary. -/
def State.canHalt (s : State) : Bool := s.pit.id != 0 && s.tk.run != .stopped && !s.tk.haltTaken

/-- A halt is scheduled for the boundary into `target`, and a RUNNING Pit becomes HALTING (R218). A module without a Pit, or
whose Pit is STOPPED, halts nothing. -/
def State.schedHalt (s : State) (target : Nat) (cause : BitVec 4) (remote : Bool) : State :=
  if s.canHalt then
    { s with
      sched := { s.sched with halts := s.sched.halts ++ [⟨target, cause, remote⟩] }
      tk := { s.tk with run := if s.tk.run = .running then .halting else s.tk.run } }
  else s

/-- A local halt: at the next boundary, without notice. -/
def State.localHalt (s : State) (cause : BitVec 4) : State := s.schedHalt (s.tk.tickCount.toNat + 1) cause false

/-- A packet that the module forms joins those that wait to be routed (R272). -/
def State.post (s : State) (k : Packet) : State := { s with fab := { s.fab with own := s.fab.own ++ [k] } }

/-- A delivered packet of a kind is taken and acted on; a packet that was not routed to this module changes nothing (R272). -/
def State.onArrival (s : State) (k : Packet) (kind : Byte) (act : State → State) : State :=
  if k.kind = kind ∧ s.fab.delivered.contains k then act { s with fab := { s.fab with delivered := s.fab.delivered.erase k } } else s

/-- A class-0 packet of the module, broadcast in its Pit or sent to one module (R274, R279). -/
def State.class0 (s : State) (kind : Byte) (dst : Option FAddr) (l : Option Load) : Packet :=
  let body := match l with | some x => (Config.loadBody x).take 224 | none => []
  { rtlVer := 0x20, cls := 0, bcast := dst.isNone, sroute := false, rsvd := false, pit := s.pit.id, dst := dst.getD 0
    src := s.fab.faddr, kind := kind, vis := 0, hops := 0, tag := 0, len := BitVec.ofNat 16 body.length, tick := s.tk.tickCount
    addr := 0, body := body, marks := [], vc := false, load := l }

/-- A twin in another Pit gets every halt notice and extension of this Pit (R234). -/
def State.twinElsewhere (s : State) : Bool := s.twin.paired && decide (s.twin.partnerPit ≠ s.pit.id)

/-- A message to every member of the Pit, the sender left out. -/
def State.toPit (s : State) (kind : Byte) (l : Option Load) : State := if 1 < s.pitSize then s.post (s.class0 kind none l) else s

/-- A message to a twin in another Pit. -/
def State.toTwin (s : State) (kind : Byte) (l : Load) : State :=
  if s.twinElsewhere then s.post (s.class0 kind (some s.twin.partner) (some l)) else s

def State.sendHaltNotice (s : State) (n : HaltNotice) : State :=
  (s.toPit 0x10 (some (.halt n))).toTwin 0x10 (.halt { n with relay := true })

/-- The module sends a halt notice for C + NOTICE and halts there itself (R220). -/
def State.noticeHalt (s : State) (cause : BitVec 4) (remote : Bool) : State :=
  let target := s.tk.tickCount.toNat + s.tk.notice.toNat
  if s.canHalt then
    (s.sendHaltNotice ⟨s.fab.faddr, cause, BitVec.ofNat 64 target, false⟩).schedHalt target cause remote
  else s

/-- NOTICE from the largest number of hops between members (R220). -/
def noticeOf (hops tickPeriod : Nat) : Byte := BitVec.ofNat 8 (1 + ceilDiv (hops * 1174) (tickPeriod * 512))

/-! ### Error records (R333 to R336) -/

/-- Units of R335. -/
inductive EUnit where
  | module | face (f : Nat) | die (d : Nat) | stack (m : Nat) | port (p : Nat) | hub | standby
  deriving DecidableEq, Repr

def EUnit.code : EUnit → Nat
  | .module => 0 | .face _ => 1 | .die _ => 2 | .stack _ => 3 | .port _ => 4 | .hub => 5 | .standby => 6

def EUnit.index : EUnit → Nat
  | .face f => f | .die d => d | .stack m => m | .port p => p | _ => 0

/-- Class of a code (R334): its high byte, one less. -/
def errClass (code : Nat) : Nat := code / 256 - 1

/-- A record is raised. A fatal one halts the module's Pit: by halt notice with cause 3 for STALL_LIMIT and COLL_STALL, locally
with cause 6 for BULK_LOW and cause 5 for every other code (R333). -/
def State.raise (s : State) (code : Nat) (u : EUnit) (addr : Nat) (detail : List Byte) : State :=
  let fatal := errClass code == 3
  let halts := fatal && s.canHalt
  let e : ErrRec :=
    { cls := errClass code, halted := halts, code := code, pit := s.pit.id, unit := u.code, index := u.index
      tick := if s.pwr.hub then s.tk.tickCount else 0, epoch := s.tk.epochId, addr := BitVec.ofNat 64 addr
      detail := padTo 16 detail }
  let s := { s with errs := { s.errs with raised := s.errs.raised ++ [e] } }
  if !fatal then s
  else if code = 0x0402 ∨ code = 0x0405 then s.noticeHalt 3 false
  else if code = 0x0408 then s.localHalt 6
  else s.localHalt 5

/-- The 64 bytes of a record (R335). -/
def Logged.bytes (l : Logged) : List Byte :=
  let e := l.er
  let b := [0x20, BitVec.ofNat 8 (e.cls + 4 * b2n e.halted)] ++ leBytes 2 e.code ++ leBytes 2 e.pit.toNat
    ++ [BitVec.ofNat 8 e.unit, BitVec.ofNat 8 e.index] ++ leBytes 8 l.seq ++ leBytes 8 e.tick.toNat ++ leBytes 4 e.epoch.toNat
    ++ zeros 4 ++ leBytes 8 e.addr.toNat ++ padTo 16 e.detail ++ zeros 4
  b ++ leBytes 4 (crc32c b).toNat

def optBytes : Option Logged → List Byte
  | some l => l.bytes
  | none => zeros 64

/-! ### Column groups (R92 to R94) -/

/-- The repair record of a Face follows its maps and its retirement (R93, R346). -/
def repairOf (x : Face) (r : Repair) : Repair :=
  { r with bypass := x.bypassMap, pending := x.pendingMap, retired := r.retired || x.state == .retired }

def State.syncRepairs (s : State) : State :=
  { s with flash := { s.flash with repairs := List.zipWith repairOf s.faces s.flash.repairs } }

/-- Groups that are neither bypassed nor pending yet. -/
def Face.freshGroups (x : Face) (g : BitVec 16) : BitVec 16 := g &&& ~~~(x.bypassMap ||| x.pendingMap)

/-- Column groups found faulty after power-on: those not yet known enter PENDING_MAP, with GROUP_PENDING (R92, R94). -/
def State.markGroups (s : State) (f : FaceId) (g : BitVec 16) : State :=
  let new := (s.face f).freshGroups g
  if new = 0 then s
  else (s.updFace f fun x => { x with pendingMap := x.pendingMap ||| new }).syncRepairs.raise 0x010A (.face f.val) 0 (leBytes 2 new.toNat)

/-- Physical column of logical column n: the n-th live one (R92). -/
def Face.column (x : Face) (n : Nat) : Nat :=
  if x.bypassMap = 0 then n else ((List.range 128).filter fun c => !x.bypassMap.getLsbD (c / 8)).getD n n

/-! ### Memory accesses -/

def Region.errMem : Region → Nat
  | .scratchpad .. => 0
  | .stockpile _ o => if o < 0x80000 then 5 else 1
  | _ => 2

/-- A granule meets one of several (address, length) ranges. -/
def hitsAny (rs : List (Nat × Nat)) (g : Nat) : Bool := rs.any fun r => granHits g r.1 r.2

/-- Uncorrectable words found in granules count against their stacks (R256). -/
def Mem.countStacks (m : Mem) (gs : List Nat) : Mem :=
  gs.foldl (fun m g => match m.region g with
    | .hbm st _ => { m with stackErrs := lmod (· + 1) m.stackErrs st }
    | _ => m) m

/-- What a unit's reads of ranges leave behind: a corrected error is counted and gone; an uncorrectable one poisons its granule
and raises a record; a read of a poisoned granule is counted (R248, R250). -/
def State.noteReads (s : State) (u : EUnit) (rs : List (Nat × Nat)) : State :=
  let old := s.mem.poison.filter (hitsAny rs)
  let ue := (s.mem.latentUe.filter (hitsAny rs)).filter fun g => !s.mem.poison.contains g
  let ce := s.mem.latentCe.filter (hitsAny rs)
  let m := { s.mem with
    poison := ue.foldl (fun l g => nins g l) s.mem.poison
    latentUe := s.mem.latentUe.filter fun g => !hitsAny rs g
    latentCe := s.mem.latentCe.filter fun g => !hitsAny rs g
    ce := satAdd 32 s.mem.ce ce.length
    ue := satAdd 32 s.mem.ue ue.length
    poisonRd := satAdd 32 s.mem.poisonRd old.length }
  ue.foldl (fun s g => s.raise 0x0301 u g [BitVec.ofNat 8 (s.mem.region g).errMem]) { s with mem := m.countStacks ue }

/-- `n` bytes that the manual calls undefined, the first of them numbered `at_` (log entry 24). -/
def freeList (at_ n : Nat) : List Byte := (rangeFrom at_ n).map Config.freeByte

/-- Undefined bytes over a range of memory. -/
def State.freeFill (s : State) (a n : Nat) : State :=
  { s with mem := s.mem.writeBytes a (freeList s.free n) [], free := s.free + n }

/-- mix of R235. -/
def twinMix (a w : BitVec 64) : BitVec 64 := mixRound (mixRound ((a * 0x9E3779B97F4A7C15) ^^^ w))

/-- One write event of R235: word `w` at scratchpad offset `off`, `send` for a word that a mover sends off the Face. -/
def digEvent (send : Bool) (w : BitVec 64) (off : Nat) (d : RegionDig) : RegionDig :=
  { sum := d.sum + twinMix (BitVec.ofNat 64 (off + b2n send * 2 ^ 63)) w
    lo := if send then d.lo else Nat.min d.lo off
    hi := if send then d.hi else Nat.max d.hi (off + 7) }

def RegionDig.none : RegionDig := ⟨0, spSize, 0⟩

/-- The digests of tick `t`, kept for the last 16 ticks (R235). -/
def digsAt (l : List TickDig) (t : Nat) : TickDig := (l.find? fun d => d.tick == t).getD ⟨t, []⟩

def putDigs (l : List TickDig) (d : TickDig) : List TickDig :=
  d :: l.filter fun x => x.tick ≠ d.tick && decide (d.tick < x.tick + 16)

/-- Fold the words at the given offsets of Face f's scratchpad into its digests of this tick, where the module is paired. -/
def State.foldWords (s : State) (f : FaceId) (send : Bool) (offs : List Nat) : State :=
  if s.twin.paired then
    let t := s.tk.tickCount.toNat
    let base := spBase + f.val * spSize
    s.updFace f fun x =>
      let d := digsAt x.digests t
      let regs := offs.foldl (fun r off =>
        let w := BitVec.ofNat 64 (s.mem.nat (base + off) 8)
        sset RegionDig.none r (off / 0x800000) (digEvent send w off (sget RegionDig.none r (off / 0x800000)))) d.regions
      { x with digests := putDigs x.digests { d with regions := regs } }
  else s

/-- Offsets of the 8-byte words that an element write touches, relative to the Face's scratchpad. -/
def touchedWords (base : Nat) (ws : List BitWrite) : List Nat :=
  ws.foldl (fun l w =>
    let lo := (w.addr / 8 - base) / 8
    let hi := ((w.addr + w.width - 1) / 8 - base) / 8
    (rangeFrom lo (hi + 1 - lo)).foldl (fun l i => nins (8 * i) l) l) []

def spAddr (f : FaceId) (off : Nat) : Nat := spBase + f.val * spSize + off

/-- Offsets of the 8-byte words of Face f's scratchpad that a range of device addresses touches. -/
def scratchWords (f : FaceId) (a n : Nat) : List Nat :=
  let lo := Nat.max a (spAddr f 0)
  let hi := Nat.min (a + n) (spAddr f 0 + spSize)
  if lo < hi then
    let w := (lo - spAddr f 0) / 8
    (rangeFrom w ((hi - 1 - spAddr f 0) / 8 + 1 - w)).map (8 * ·)
  else []

/-- A write of a range of device memory, folded into the digests of every Face whose scratchpad it reaches (R235). -/
def State.foldRange (s : State) (a n : Nat) : State :=
  if s.twin.paired then allFaces.foldl (fun s g => s.foldWords g false (scratchWords g a n)) s else s

/-- The one write into a Face's scratchpad by its own units: elements, then the digests of the words touched (R235). -/
def State.spWrite (s : State) (f : FaceId) (ws : List BitWrite) : State :=
  ({ s with mem := s.mem.write ws }).foldWords f false (touchedWords (spAddr f 0) ws)

/-- Bytes at a scratchpad offset as element writes. -/
def byteWrites (addr : Nat) (bytes : List Byte) (mark : Bool) : List BitWrite :=
  ((List.range bytes.length).zip bytes).map fun (i, b) => ⟨8 * (addr + i), 8, b.toNat, mark⟩

/-- Bytes into a scratchpad at an offset. -/
def State.spBytes (s : State) (f : FaceId) (off : Nat) (bytes : List Byte) : State :=
  s.spWrite f (byteWrites (spAddr f off) bytes false)

/-! ### Replies (R319, R321) -/

def Status.code : Status → Nat
  | .ok => 0x0000 | .pending => 0x0001 | .badVersion => 0x0100 | .badOpcode => 0x0101 | .badParam => 0x0102
  | .badCrc => 0x0103 | .notReady => 0x0200 | .configBusy => 0x0201 | .pitDenied => 0x0202 | .streamMoved => 0x0300
  | .streamUnknown => 0x0301 | .streamStateMismatch => 0x0302 | .tableNonmonotone => 0x0400 | .tableBankActive => 0x0401
  | .tickOverrun => 0x0500 | .fwRejected => 0x0600 | .fwIncomplete => 0x0601 | .memPoisoned => 0x0700

/-- A reply as bytes (R319). -/
def Reply.bytes (r : Reply) : List Byte :=
  let h := leBytes 2 r.tag.toNat ++ leBytes 2 r.status.code ++ leBytes 4 r.acc.toNat ++ leBytes 4 r.cmp.toNat
    ++ leBytes 2 r.payload.length
  h ++ leBytes 2 (crc16 (h ++ zeros 2 ++ r.payload)).toNat ++ r.payload

def State.queue (s : State) (q : QueueId) : Queue := s.host.queues.getD q.val (Queue.reset q.val)

def State.updQueue (s : State) (q : QueueId) (g : Queue → Queue) : State :=
  { s with host := { s.host with queues := lmod g s.host.queues q.val } }

def Queue.cqSize (x : Queue) : Nat := 2 ^ x.cqLog.toNat
def Queue.sqSize (x : Queue) : Nat := 2 ^ x.sqLog.toNat
def Queue.cqFull (x : Queue) : Bool := (x.cqTail.toNat + 1) % x.cqSize == x.cqHead.toNat % x.cqSize

/-- The Derrick writes one reply into the next CQ entry, then the tail shadow, and raises the queue's vector (R315, R316). -/
def State.cqWrite (s : State) (q : QueueId) (r : Reply) : State :=
  let x := s.queue q
  let tail := (x.cqTail.toNat + 1) % x.cqSize
  let hm := Cells.write s.host.hostMem (x.cqBase.toNat + x.cqTail.toNat % x.cqSize * 4096) r.bytes
  let hm := Cells.write hm x.shadow.toNat (leBytes 4 tail)
  let s := { s with host := { s.host with hostMem := hm } }
  ((s.updQueue q fun x => { x with cqTail := BitVec.ofNat 32 tail }).emit (.reply r)).emit (.msix x.msix.toNat)

/-- A reply leaves on the path its command came by: a queue, a datagram, or a packet of class 1 (R206). A full CQ holds it (R316). -/
def State.deliver (s : State) (r : Reply) : State :=
  match r.path with
  | .queue q =>
    let s := s.trace 1 0x0003 [q.val, r.tag.toNat, r.status.code]
    if (s.queue q).cqFull || !(s.queue q).held.isEmpty then s.updQueue q fun x => { x with held := x.held ++ [r] }
    else s.cqWrite q r
  | .mgmt a => (s.trace 1 0x0003 [64, r.tag.toNat, r.status.code]).emit (.datagram a r)
  | .fabric a =>
    let pkt : Packet :=
      { rtlVer := 0x20, cls := 1, bcast := false, sroute := false, rsvd := false, pit := s.pit.id, dst := a, src := s.fab.faddr
        kind := 0x04, vis := 0, hops := 0, tag := r.tag, len := BitVec.ofNat 16 r.bytes.length, tick := s.tk.tickCount, addr := 0
        body := r.bytes, marks := [], vc := false, load := none }
    ((s.trace 1 0x0003 [64, r.tag.toNat, r.status.code]).emit (.reply r)).post pkt

def State.tick32 (s : State) : BitVec 32 := s.tk.tickCount.setWidth 32

/-- A reply to a command that is refused, or that completes, in its acceptance tick. -/
def State.replyNow (s : State) (k : CmdKey) (st : Status) (payload : List Byte) : State :=
  s.deliver ⟨k.path, k.tag, st, s.tick32, s.tick32, payload⟩

/-- The final reply, with a completion tick, of a command accepted before: it is no longer outstanding (R319). -/
def State.finishAt (s : State) (t : Ticket) (cmp : BitVec 32) (st : Status) (payload : List Byte) : State :=
  let s := { s with host := { s.host with outstanding := s.host.outstanding.filter fun x => x.key ≠ t.key } }
  s.deliver ⟨t.key.path, t.key.tag, st, t.acc, cmp, payload⟩

/-- The final reply formed in the present tick. -/
def State.finish (s : State) (t : Ticket) (st : Status) (payload : List Byte) : State := s.finishAt t s.tick32 st payload

end Sys2Proof.Machine
end

