-- ==== Sys2Proof/Machine/Operands.lean ====
section
/-! DEFINITION. Operand forms of a Face's units: streams (R99 to R103), masks (R388), spall lists (R117 to R120), reads of the
finished-tile queue (R106), rounded and masked writes (R39, R115, R169), stochastic rounding (R113). -/

namespace Sys2Proof.Machine

/-! ### Stream addresses -/

def StreamFmt (d : StreamDesc) : Fmt := (Fmt.ofCode d.fmt).getD .posit8

/-- Number of descriptor elements of a stream. -/
def streamCount (d : StreamDesc) : Nat := d.cnt0.toNat * d.cnt1.toNat * d.cnt2.toNat * d.cnt3.toNat

/-- Bit offsets of a stream's elements in the Face's scratchpad, in stream order (R99, R101, R388). -/
def streamOffs (d : StreamDesc) : List Int :=
  let sb : Int := (StreamFmt d).strideBits
  let base : Int := 8 * d.base.toNat
  (List.range d.cnt3.toNat).flatMap fun (i3 : Nat) => (List.range d.cnt2.toNat).flatMap fun (i2 : Nat) =>
    (List.range d.cnt1.toNat).flatMap fun (i1 : Nat) => (List.range d.cnt0.toNat).map fun (i0 : Nat) =>
      base + sb * ((i0 : Int) * d.str0.toInt + (i1 : Int) * d.str1.toInt + (i2 : Int) * d.str2.toInt + (i3 : Int) * d.str3.toInt)

/-- Device bit addresses of a stream's elements. -/
def streamAddrs (f : FaceId) (d : StreamDesc) : List Nat := (streamOffs d).map fun o => 8 * spAddr f 0 + o.toNat

def elemBytes (fmt : Fmt) (addr : Nat) : Nat := (addr % 8 + fmt.bits + 7) / 8

/-! ### Reading values -/

/-- A value as a unit reads it: the value (NaR for a marked element that is not an integer), its IEEE source pattern, the poison
mark, and the stored pattern. -/
structure Rd where
  v    : Val
  ieee : Option (Fmt × Nat)
  mark : Bool
  pat  : Nat
  deriving DecidableEq, Repr

def Rd.nar (mark : Bool) : Rd := ⟨.nar, none, mark, 0⟩

/-- A scalar element's value: a marked element reads as NaR, an integer keeps its value beside the mark (R248, R105). -/
def scalarOf (fmt : Fmt) (pat : Nat) (mark : Bool) : Rd :=
  if mark && !fmt.isInt then ⟨.nar, none, true, pat⟩
  else ⟨fmt.decode pat, if fmt.isIeee then some (fmt, pat) else none, mark, pat⟩

def scalarRd (m : Mem) (fmt : Fmt) (addr : Nat) : Rd :=
  scalarOf fmt (m.bitsAt addr fmt.bits) (m.marked (addr / 8) (elemBytes fmt addr))

/-- R37 on a block's header and elements, `look` giving an escaped element's value. -/
def decodeBlock (n : Nat) (hdr : Nat) (hdrMark : Bool) (elems : List (Nat × Bool)) (look : Nat → Rd × Totals) :
    List Rd × Totals :=
  let h := BpHeader.ofNat hdr
  if hdrMark then (List.replicate 32 (Rd.nar true), Totals.zero)
  else if h.malformed then (List.replicate 32 (Rd.nar false), { Totals.zero with bpBad := 1 })
  else if h.isZero then (List.replicate 32 ⟨.fin 0, none, false, 0⟩, Totals.zero)
  else
    let rs := ((List.range 32).zip elems).map fun (i, p, mk) =>
      if h.escaped i then look i
      else if mk then (Rd.nar true, Totals.zero)
      else
        match positDecode n p with
        | .fin q => (⟨.fin (q * pow2 h.scale), none, false, p⟩, Totals.zero)
        | _ => (⟨.nar, none, false, p⟩, Totals.zero)
    (rs.map (·.1), (rs.map (·.2)).foldl Totals.plus Totals.zero)

/-- A block in memory (R34). -/
def memBlock (m : Mem) (n : Nat) (a : Nat) (look : Nat → Rd × Totals) : List Rd × Totals :=
  let k := n / 8
  decodeBlock n (m.nat a 4) (m.marked a 4)
    ((List.range 32).map fun i => (m.nat (a + 4 + k * i) k, m.marked (a + 4 + k * i) k)) look

/-! ### Spall lists -/

/-- Slots per page (R117). -/
def slotsOf (scode : BitVec 3) : Nat := 4 * 2 ^ scode.toNat

/-- A slot (R118). -/
structure Slot where
  value : Nat
  vfmt  : Nat
  elem  : Nat
  unit  : Nat
  mark  : Bool
  deriving DecidableEq, Repr

def Slot.valid (x : Slot) : Bool := x.vfmt == 3 || x.vfmt == 0xC || x.vfmt == 0xD || x.vfmt == 0xE

def slotAt (m : Mem) (a : Nat) : Slot :=
  let b := m.bytes a 16
  { value := leAt b 0 4, vfmt := leAt b 4 1 % 16, elem := leAt b 6 2, unit := leAt b 8 4, mark := m.marked a 16 }

/-- The value a slot holds, taken exactly (R120). A value that was kept in an IEEE format counts here as the real it stands for: when it
escapes again on a re-encoding, R40's IEEE form is not used for it and its slot holds posit32 (log entry 140, DESIGN CHOICE). -/
def Slot.value? (x : Slot) : Rd × Totals :=
  if x.mark then (Rd.nar true, Totals.zero)
  else if x.vfmt = 3 then (⟨positDecode 32 x.value, none, false, x.value⟩, Totals.zero)
  else
    let v := if x.vfmt = 0xC then ieeeDecode 8 23 x.value
      else if x.vfmt = 0xD then ieeeDecode 5 10 (x.value % 65536) else ieeeDecode 8 7 (x.value % 65536)
    match v with
    | .inf _ => (Rd.nar false, { Totals.zero with infIn := 1 })
    | .nan => (Rd.nar false, { Totals.zero with nanIn := 1 })
    | v => (⟨v, none, false, x.value⟩, Totals.zero)

/-- The slots of the page at device address `page`. -/
def pageSlots (m : Mem) (page S : Nat) : List Slot := (List.range S).map fun k => slotAt m (page + 16 * k)

/-- R120: the value of escaped element `i` of unit `u`, or NaR and a counted miss. -/
def spallFind (m : Mem) (page S u i : Nat) : Rd × Totals :=
  match (pageSlots m page S).find? fun x => x.valid && x.unit == u && x.elem == i with
  | some x => x.value?
  | none => (Rd.nar false, { Totals.zero with spallMiss := 1 })

def spallMissed : Rd × Totals := (Rd.nar false, { Totals.zero with spallMiss := 1 })

/-- Device address of the page of unit `u` of a list in Face f's scratchpad (R118). -/
def pageAddr (f : FaceId) (l : SpallDesc) (u : Nat) : Nat := spAddr f l.pbase.toNat + u / 32 * slotsOf l.scode * 16

/-- The unit that starts at scratchpad offset `off` (R118). -/
def unitOf (l : SpallDesc) (off : Nat) : Nat := (off - l.tbase.toNat) / l.pitch.toNat

def spallLook (m : Mem) (f : FaceId) (l : Option SpallDesc) (u i : Nat) : Rd × Totals :=
  match l with
  | some l => spallFind m (pageAddr f l u) (slotsOf l.scode) u i
  | none => spallMissed

/-! ### Reading streams -/

/-- What a read yields: values, event counts, and the byte ranges read. -/
structure ReadOut where
  vals  : List Rd
  tot   : Totals
  rngs  : List (Nat × Nat)
  deriving DecidableEq, Repr

/-- R99 to R103: the values of a stream, cut to `cut` values where given. -/
def readOut (m : Mem) (f : FaceId) (st : Stream) (cut : Option Nat) : ReadOut :=
  let fmt := StreamFmt st.desc
  let addrs := streamAddrs f st.desc
  let addrs := match cut with
    | some n => addrs.take (ceilDiv n fmt.valuesPer)
    | none => addrs
  if fmt.isBp then
    let bs := addrs.map fun a =>
      let u := match st.spall with
        | some l => unitOf l (a / 8 - spAddr f 0)
        | none => 0
      let h := BpHeader.ofNat (m.nat (a / 8) 4)
      let page := match st.spall with
        | some l => if h.nesc = 0 then [] else [(pageAddr f l u, slotsOf l.scode * 16)]
        | none => []
      (memBlock m fmt.positN (a / 8) (spallLook m f st.spall u), (a / 8, fmt.bits / 8) :: page)
    let vs := bs.flatMap fun b => b.1.1
    { vals := match cut with | some n => vs.take n | none => vs
      tot := (bs.map fun b => b.1.2).foldl Totals.plus Totals.zero
      rngs := bs.flatMap (·.2) }
  else
    { vals := addrs.map (scalarRd m fmt), tot := Totals.zero, rngs := addrs.map fun a => (a / 8, elemBytes fmt a) }

/-- Read a stream: its values, and the state after the reads' counts and records. -/
def State.readStream (s : State) (f : FaceId) (st : Stream) (cut : Option Nat) : List Rd × State :=
  let r := readOut s.mem f st cut
  (r.vals, (s.noteReads (.face f.val) r.rngs).count f r.tot)

/-- Bytes of the Face's scratchpad: number, mark, and the state after the read. -/
def State.spLoad (s : State) (f : FaceId) (off n : Nat) : Nat × Bool × State :=
  let a := spAddr f off
  (s.mem.nat a n, s.mem.marked a n, s.noteReads (.face f.val) [(a, n)])

/-- A posit32 field of a record; a marked word reads as NaR. -/
def State.spPosit32 (s : State) (f : FaceId) (off : Nat) : Val :=
  if s.mem.marked (spAddr f off) 4 then .nar else positDecode 32 (s.mem.nat (spAddr f off) 4)

def State.spStore (s : State) (f : FaceId) (off n v : Nat) : State := s.spBytes f off (leBytes n v)

/-- R103: the effective count in descriptor elements, clamped to the descriptor's. -/
def State.effCount (s : State) (f : FaceId) (cnt : Option SpOff) (full : Nat) : Nat × State :=
  match cnt with
  | none => (full, s)
  | some w =>
    let (v, _, s) := s.spLoad f w.toNat 4
    ((clampInt 0 full (toSigned 32 v)).toNat, s)

/-! ### The finished-tile queue as a read operand (R106) -/

def State.headTile (s : State) (f : FaceId) : Option Tile := (s.face f).units.queue.head?

/-- The spall unit of a tile's block `i`: a row of blocks starts `unitStep` units after the row above it (R67, R118). -/
def Tile.unitAt (t : Tile) (i : Nat) : Nat := t.unit0 + i / (t.cols / 32) * t.unitStep + i % (t.cols / 32)

/-- The values of a tile's elements `from_`, `from_ + 1`, …, with what decoding them counts. -/
def tileValues (m : Mem) (f : FaceId) (t : Tile) (l : Option SpallDesc) (from_ n : Nat) : List Rd × Totals :=
  let es := ((List.range t.elems.length).zip t.elems).drop from_ |>.take n
  if t.fmt.isBp then
    let N := t.fmt.positN
    let bs := es.map fun (i, p) =>
      decodeBlock N (p % 2 ^ 32) (t.marks.contains i)
        ((List.range 32).map fun j => (p / 2 ^ (32 + N * j) % 2 ^ N, false)) (spallLook m f l (t.unitAt i))
    (bs.flatMap (·.1), (bs.map (·.2)).foldl Totals.plus Totals.zero)
  else (es.map fun (i, p) => scalarOf t.fmt p (t.marks.contains i), Totals.zero)

/-- TSW bytes (R73). -/
def tswBytes (w0 w1 : BitVec 64) : List Byte := leBytes 8 w0.toNat ++ leBytes 8 w1.toNat

/-- The next `n` elements of the head entry leave it: the TSW is written with the first of them, and the entry leaves with its last,
or whole under a count (R106). -/
def State.popQueue (s : State) (f : FaceId) (tsw : SpOff) (n : Nat) (whole : Bool) : State :=
  match s.headTile f with
  | none => s
  | some t =>
    let s := if t.read = 0 then s.spBytes f tsw.toNat (tswBytes t.tsw0 t.tsw1) else s
    s.updUnits f fun u =>
      match u.queue with
      | [] => u
      | t :: r => if whole || decide (t.elems.length ≤ t.read + n) then { u with queue := r }
                  else { u with queue := { t with read := t.read + n } :: r }

/-- The values of the head entry's next `n` elements, with what decoding them counts (R106, R37). -/
def State.readQueue (s : State) (f : FaceId) (tsw : SpOff) (n : Nat) (l : Option SpallDesc) (whole : Bool) :
    List Rd × State :=
  match s.headTile f with
  | none => ([], s)
  | some t =>
    let s := s.popQueue f tsw n whole
    let (vs, tot) := tileValues s.mem f t l t.read n
    (vs, s.count f tot)

/-- The stream of a read operand; a queue read uses its counts, FMT and SPALL_ID (R106). -/
def srcStream : Src → Stream
  | .mem st => st
  | .queue _ st => st

/-- The format of a read operand. -/
def srcFmt (x : Src) : Fmt := StreamFmt (srcStream x).desc

/-- Descriptor elements of a read operand. -/
def srcCount (x : Src) : Nat := streamCount (srcStream x).desc

/-- Read an operand, cut to `cut` values; `counted` says that the read stream is a counted one. -/
def State.readSrc (s : State) (f : FaceId) (src : Src) (cut : Option Nat) (counted : Bool) : List Rd × State :=
  match src with
  | .mem st => s.readStream f st cut
  | .queue tsw st =>
    let (vs, s) := s.readQueue f tsw (streamCount st.desc) st.spall counted
    (match cut with | some k => vs.take k | none => vs, s)

/-- The first read stream of an instruction with its count word: its values and their number. -/
def State.readFirst (s : State) (f : FaceId) (src : Src) (cnt : Option SpOff) : List Rd × State :=
  let per := (srcFmt src).valuesPer
  let (n, s) := s.effCount f cnt (srcCount src)
  s.readSrc f src (some (n * per)) cnt.isSome

/-- Mask bits of a stream, each with its poison mark; a bit from a poisoned word reads as 1 (R388). -/
def State.readMask (s : State) (f : FaceId) (st : Stream) (cut : Option Nat) : List (Bool × Bool) × State :=
  let (vs, s) := s.readStream f st cut
  (vs.map fun r => (r.mark || r.pat % 2 == 1, r.mark), s)

/-! ### Results -/

/-- A result on its way to a write stream: its value, the IEEE source it was converted from, the poison mark of an integer
result, whether the manual states no value for it, and the radicand of a square root. -/
structure RV where
  v     : Val
  ieee  : Option (Fmt × Nat)
  mark  : Bool
  open_ : Bool
  root  : Option Rat
  deriving DecidableEq, Repr

def RV.of (v : Val) : RV := ⟨v, none, false, false, none⟩

/-- What became of one result, for a statistics block (R127). -/
inductive ResKind where
  | real | escaped | nonreal | skipped
  deriving DecidableEq, Repr

structure Res where
  kind : ResKind
  src  : Val
  val  : Val
  sat  : Bool
  deriving DecidableEq, Repr

/-- The state after a write, the outcome of each result, and the number of refused escapes. -/
structure Put where
  s    : State
  res  : List Res
  full : Nat

/-- Free bits of the manual's open values, numbered by the state's counter (log entry 24). -/
def freeBits (at_ w : Nat) : Nat := leNat ((rangeFrom at_ 8).map Config.freeByte) % 2 ^ w

/-- Stochastic rounding's seed and ptick (R114), where an instruction sets SR. -/
abbrev SrKey := Option (BitVec 64 × BitVec 64)

def State.srKey (s : State) (f : FaceId) (sr : Bool) : SrKey :=
  if sr then
    let seed := match (s.face f).prog with | some p => p.srSeed | none => 0
    some (seed, s.progTick f - s.tk.launchAt)
  else none

/-- The pattern of a result in a scalar format, for the element at byte address `a`. -/
def patternOf (fmt : Fmt) (sr : SrKey) (a : Nat) (v : Val) : Nat :=
  match sr, v with
  | some (seed, pt), .fin q =>
    if fmt.isPosit then positRoundSr fmt.positN (srBits seed pt (BitVec.ofNat 64 a)) q else fmt.encode v
  | _, _ => fmt.encode v

/-- Counters that one conversion moves (R42, R44, R45, R47). -/
def tally (fmt : Fmt) (r : RV) : Totals :=
  match r.v with
  | .fin q => if fmt.saturates q then { Totals.zero with convRange := 1 } else Totals.zero
  | .inf _ => { Totals.zero with infIn := 1 }
  | .nan => { Totals.zero with nanIn := 1 }
  | .nar => if fmt.isInt && !r.mark then { Totals.zero with convNar := 1 } else Totals.zero

/-- The kind of a result. -/
def RV.kind (r : RV) : ResKind := if r.v.isReal && !r.mark then .real else .nonreal

/-- The value of a result once a poisoned mask bit governs it: NaR, or an integer with the mark (R388). -/
def RV.poisoned (fmt : Fmt) (r : RV) : RV :=
  if fmt.isInt || fmt == .mask then { r with mark := true } else { r with v := .nar, ieee := none }

/-- Mask bits for a write, all 1 where none is named. -/
def State.dstMask (s : State) (f : FaceId) (d : Dst) (n : Nat) : List (Bool × Bool) × State :=
  match d.mask with
  | some (st, _) => s.readMask f st (some n)
  | none => (List.replicate n (true, false), s)

def dstKeeps (d : Dst) : Bool :=
  match d.mask with
  | some (_, .keep) => true
  | _ => false

/-- One element of a rounded write: the write, if any, its counts, its outcome, and the free values used. -/
def putOne (fmt : Fmt) (sr : SrKey) (keep : Bool) (a : Nat) (mk : Bool × Bool) (r : RV) (free : Nat) :
    List BitWrite × Totals × Res × Nat :=
  if !mk.1 then
    ((if keep then [] else [⟨a, fmt.bits, 0, false⟩]), Totals.zero, ⟨.skipped, .fin 0, .fin 0, false⟩, free)
  else
    let r := if mk.2 then r.poisoned fmt else r
    if r.open_ then ([⟨a, fmt.bits, freeBits free fmt.bits, r.mark⟩], Totals.zero, ⟨.nonreal, r.v, .nar, false⟩, free + 8)
    else
      let intLike := fmt.isInt || fmt == .mask
      let v := if r.mark && !intLike then .nar else r.v
      let p := patternOf fmt sr (a / 8) v
      let t := tally fmt { r with v := v }
      ([⟨a, fmt.bits, p, r.mark && intLike⟩], t, ⟨r.kind, v, fmt.decode p, decide (t.convRange ≠ 0)⟩, free)

/-- A rounded write of scalar elements (R32, R42, R45, R113, R169). -/
def State.putScalar (s : State) (f : FaceId) (d : Dst) (sr : SrKey) (vals : List RV) : Put :=
  let fmt := StreamFmt d.st.desc
  let addrs := (streamAddrs f d.st.desc).take vals.length
  let (mask, s) := s.dstMask f d vals.length
  let go := fun (acc : List BitWrite × Totals × List Res × Nat) (x : Nat × (Bool × Bool) × RV) =>
    let (w, t, r, fr) := putOne fmt sr (dstKeeps d) x.1 x.2.1 x.2.2 acc.2.2.2
    (acc.1 ++ w, acc.2.1.plus t, acc.2.2.1 ++ [r], fr)
  let (ws, t, rs, fr) := (addrs.zip (mask.zip vals)).foldl go ([], Totals.zero, [], s.free)
  ⟨({ s with free := fr }.count f t).spWrite f ws, rs, 0⟩

/-! ### Encoding block posits with a spall list (R39, R40, R119) -/

/-- Empty every slot of the page whose UNIT is u. -/
def purgeWrites (m : Mem) (page S u : Nat) : List BitWrite :=
  ((List.range S).filter fun k => (slotAt m (page + 16 * k)).valid && (slotAt m (page + 16 * k)).unit == u).map fun k =>
    ⟨8 * (page + 16 * k + 4), 8, 0, false⟩

/-- A slot's 16 bytes (R118). -/
def slotBytes (e : Escape) (u : Nat) : List Byte :=
  leBytes 4 e.bits.toNat ++ [BitVec.ofNat 8 e.vfmt.toNat, 0] ++ leBytes 2 e.elem ++ leBytes 4 u ++ zeros 4

def emptySlots (m : Mem) (page S : Nat) : List Nat := (List.range S).filter fun k => !(slotAt m (page + 16 * k)).valid

/-- R119 before an encoder writes unit u: its old slots are emptied. -/
def State.purgeUnit (s : State) (f : FaceId) (l : Option SpallDesc) (u : Nat) : State :=
  match l with
  | some l => s.spWrite f (purgeWrites s.mem (pageAddr f l u) (slotsOf l.scode) u)
  | none => s

def State.freeSlots (s : State) (f : FaceId) (l : Option SpallDesc) (u : Nat) : List Nat :=
  match l with
  | some l => (emptySlots s.mem (pageAddr f l u) (slotsOf l.scode)).map fun k => pageAddr f l u + 16 * k
  | none => []

/-- The unit's escapes go into the first empty slots, lower ELEM first. -/
def State.putEscapes (s : State) (f : FaceId) (slots : List Nat) (u : Nat) (es : List Escape) : State :=
  (slots.zip es).foldl (fun s (a, e) => s.spWrite f (byteWrites a (slotBytes e u) false)) s

/-- Counts of an encoded block (R39, R40, R47, R121). -/
def BpBlock.tally (b : BpBlock) : Totals :=
  { Totals.zero with convRange := b.sats + (b.escapes.filter (·.sat)).length, scaleClamp := b2n b.clamped, spallFull := b.refused }

/-- Encode unit u from 32 source values: purge, escapes, slots and counts. -/
def State.encodeUnit (s : State) (f : FaceId) (l : Option SpallDesc) (u n : Nat) (enc : BpEnc) (src : List SrcVal) :
    State × BpBlock :=
  let s := s.purgeUnit f l u
  let slots := s.freeSlots f l u
  let b := bpEncode n enc.maxalign enc.esc slots.length src
  ((s.putEscapes f slots u b.escapes).count f b.tally, b)

/-- Conversion events of the sources of a block (R44). -/
def srcTally (vs : List RV) : Totals :=
  vs.foldl (fun t r => match r.v with
    | .inf _ => { t with infIn := t.infIn + 1 }
    | .nan => { t with nanIn := t.nanIn + 1 }
    | _ => t) Totals.zero

def RV.srcVal (r : RV) : SrcVal := if r.mark then SrcVal.of .nar else ⟨r.v.toNar, r.ieee, r.root⟩

/-- Outcome of element i of an encoded block. -/
def blockRes (n : Nat) (b : BpBlock) (i : Nat) (r : RV) : Res :=
  let v := r.srcVal.v
  if b.header.escaped i then ⟨.escaped, v, v, false⟩
  else
    match v with
    | .fin q =>
      if b.header.isZero then ⟨.real, v, .fin 0, false⟩
      else
        let x := match positDecode n ((b.elems[i]?).getD 0) with
          | .fin y => .fin (y * pow2 b.header.scale)
          | w => w
        ⟨.real, v, x, positSat n (q * pow2 (-b.header.scale))⟩
    | _ => ⟨.nonreal, v, .nar, false⟩

/-- Groups of `n`; a last group that is short is dropped. -/
def chunksOf {α : Type} (n : Nat) : Nat → List α → List (List α)
  | 0, _ => []
  | fuel + 1, l => if l.length < n then [] else l.take n :: chunksOf n fuel (l.drop n)

/-- An encoded write of BP blocks. A block of which fewer than 32 values were produced is not written (log entry 31). -/
def State.putBlocks (s : State) (f : FaceId) (d : Dst) (enc : BpEnc) (vals : List RV) : Put :=
  let fmt := StreamFmt d.st.desc
  let n := fmt.positN
  let blocks := chunksOf 32 vals.length vals
  let addrs := (streamAddrs f d.st.desc).take blocks.length
  let (mask, s) := s.dstMask f d blocks.length
  (addrs.zip (mask.zip blocks)).foldl (fun p (a, mb, vs) =>
    let off := a / 8 - spAddr f 0
    let u := match d.st.spall with | some l => unitOf l off | none => 0
    if !mb.1 then
      let skip := List.replicate 32 (⟨.skipped, .fin 0, .fin 0, false⟩ : Res)
      if (dstKeeps d) then { p with res := p.res ++ skip }
      else
        let s := p.s.purgeUnit f d.st.spall u
        ⟨s.spBytes f off (bpBytes n ⟨-128, 0, 0, 0, 0, 0⟩ (List.replicate 32 0)), p.res ++ skip, p.full⟩
    else
      let vs := if mb.2 then vs.map fun r => { r with v := .nar, ieee := none, mark := false } else vs
      let (s, b) := p.s.encodeUnit f d.st.spall u n enc (vs.map RV.srcVal)
      let s := (s.count f (srcTally vs)).spBytes f off (bpBytes n b.header b.elems)
      ⟨s, p.res ++ ((List.range 32).zip vs).map (fun (i, r) => blockRes n b i r), p.full + b.refused⟩)
    ⟨s, [], 0⟩

/-- A write of results, rounded or encoded by the format of the write stream. -/
def State.put (s : State) (f : FaceId) (d : Dst) (enc : BpEnc) (sr : SrKey) (vals : List RV) : Put :=
  if (StreamFmt d.st.desc).isBp then s.putBlocks f d enc vals else s.putScalar f d sr vals

/-- Rows of `n` values taken column by column: the order of a kept copy (R157, log entry 134). -/
def keptOrder {α : Type} (n : Nat) (l : List α) : List α :=
  (List.range n).flatMap fun j => (List.range (ceilDiv l.length n)).filterMap fun i => l[i * n + j]?

/-- The write stream of an instruction, then its kept copy, rounded or encoded on its own from the same exact results (R157). -/
def State.putBoth (s : State) (f : FaceId) (d : Dst) (kept : Option Kept) (enc : BpEnc) (sr : SrKey) (vals : List RV) : Put :=
  let p := s.put f d enc sr vals
  match kept with
  | some k => { p with s := (p.s.put f k.y enc sr (keptOrder k.rowLen vals)).s }
  | none => p

/-! ### Bitwise moves (R387) -/

/-- A descriptor element as a moving instruction reads it: its pattern and its mark. -/
structure Raw where
  pat  : Nat
  mark : Bool
  deriving DecidableEq, Repr

/-- The zero fill of a format: ZERO_BLOCK for BP, zero bits otherwise (R109, R169). -/
def zeroPat (fmt : Fmt) : Nat := if fmt.isBp then 0x80000000 else 0

/-- Whole descriptor elements of a read operand, cut to `cut` elements. -/
def State.readRaw (s : State) (f : FaceId) (src : Src) (cut : Nat) (counted : Bool) : List Raw × State :=
  match src with
  | .mem st =>
    let fmt := StreamFmt st.desc
    let addrs := (streamAddrs f st.desc).take cut
    (addrs.map fun a => ⟨s.mem.bitsAt a fmt.bits, s.mem.marked (a / 8) (elemBytes fmt a)⟩,
     s.noteReads (.face f.val) (addrs.map fun a => (a / 8, elemBytes fmt a)))
  | .queue tsw st =>
    match s.headTile f with
    | none => ([], s)
    | some t =>
      let n := streamCount st.desc
      let es := ((List.range t.elems.length).zip t.elems).drop t.read |>.take n
      ((es.map fun (i, p) => (⟨p, t.marks.contains i⟩ : Raw)).take cut, s.popQueue f tsw n counted)

/-- Write whole elements; `none` leaves a position as it is. -/
def State.putRaw (s : State) (f : FaceId) (d : Dst) (vals : List (Option Raw)) : State :=
  let fmt := StreamFmt d.st.desc
  let addrs := (streamAddrs f d.st.desc).take vals.length
  let (mask, s) := s.dstMask f d vals.length
  s.spWrite f ((addrs.zip (mask.zip vals)).flatMap fun (a, mb, v) =>
    if !mb.1 then (if (dstKeeps d) then [] else [⟨a, fmt.bits, zeroPat fmt, false⟩])
    else match v with
      | some r => [⟨a, fmt.bits, r.pat, r.mark || mb.2⟩]
      | none => [])

end Sys2Proof.Machine
end

