-- ==== Sys2Proof/Machine/Flags.lean ====
section
/-! DEFINITION. Status words and statistics: the Tile Status Word (R73 to R77), its summary (R106), the scan status word (R181),
the lane procedure of R110 and the statistics block (R127, R128). -/

namespace Sys2Proof.Machine

/-! ### Tile Status Word -/

/-- The fields of a TSW (R74, R75). -/
structure TswInfo where
  tag      : BitVec 16
  ofmt     : Nat
  ifmt     : Nat
  qset     : Bool
  qovf     : Bool
  invalid  : Bool
  poison   : Bool
  narCount : Nat
  narSrc   : Nat
  narK     : Nat
  narRow   : Nat
  narCol   : Nat
  sat      : Nat
  window   : Nat
  deriving DecidableEq, Repr

def TswInfo.word0 (t : TswInfo) : BitVec 64 :=
  BitVec.ofNat 64 (t.tag.toNat * 2 ^ 48 + t.ofmt * 2 ^ 44 + t.ifmt * 2 ^ 40 + b2n t.qset * 2 ^ 39 + b2n t.qovf * 2 ^ 38
    + b2n t.invalid * 2 ^ 37 + b2n t.poison * 2 ^ 36 + t.narSrc * 2 ^ 34 + t.narCol / 256 * 2 ^ 32 + t.narCount * 2 ^ 16 + t.narK)

def TswInfo.word1 (t : TswInfo) : BitVec 64 :=
  BitVec.ofNat 64 (t.narRow * 2 ^ 56 + t.narCol % 256 * 2 ^ 48 + t.sat * 2 ^ 32 + t.window * 2 ^ 16 + 0x2000)

/-- The 32-bit summary of a stored TSW (R106); for a version other than 2 only NAR_COUNT and the flags are read (R77). -/
def tswSummary (w0 w1 : Nat) : Nat :=
  let known := bits w1 15 12 == 2
  b2n (decide (bits w0 31 16 ≠ 0)) + 2 * b2n (bit w0 38) + 4 * b2n (bit w0 37) + 8 * b2n (bit w0 36)
    + 16 * b2n (known && decide (bits w1 47 32 ≠ 0)) + 32 * b2n (known && decide (bits w1 31 16 ≠ 0)) + 64 * b2n (!known)

/-! ### Scan status word -/

def sswWord0 (narCount satCount : Nat) : BitVec 64 := BitVec.ofNat 64 (narCount * 2 ^ 32 + satCount % 2 ^ 32)

def sswWord1 (ch step : Nat) : BitVec 64 := BitVec.ofNat 64 (ch * 2 ^ 48 + step * 2 ^ 40 + 0x2 * 2 ^ 36)

/-! ### The lane procedure of R110 -/

/-- round32 on a rational. -/
def r32 (q : Rat) : Rat := (positDecode 32 (positRound 32 q)).toRat

/-- One step of a lane: (s, c) takes x. -/
def laneStep (p : Rat × Rat) (x : Rat) : Rat × Rat :=
  let t := r32 (p.1 + x)
  let e := if ratAbs x ≤ ratAbs p.1 then r32 (r32 (p.1 - t) + x) else r32 (r32 (x - t) + p.1)
  (t, r32 (p.2 + e))

/-- combine of R110. -/
def laneCombine (p q : Rat × Rat) : Rat × Rat :=
  let t := r32 (p.1 + q.1)
  let e := if ratAbs q.1 ≤ ratAbs p.1 then r32 (r32 (p.1 - t) + q.1) else r32 (r32 (q.1 - t) + p.1)
  (t, r32 (r32 (p.2 + q.2) + e))

/-- Apply a row of at most `acc.length` elements to the lanes. -/
def laneRow {α β : Type} (step : α → β → α) : List α → List β → List α
  | a :: r, x :: xs => step a x :: laneRow step r xs
  | acc, _ => acc

/-- All elements, 256 at a time, so that element i meets lane i mod 256. -/
def laneRun {α β : Type} (step : α → β → α) : Nat → List α → List β → List α
  | 0, acc, _ => acc
  | fuel + 1, acc, xs => if xs.isEmpty then acc else laneRun step fuel (laneRow step acc xs) (xs.drop 256)

/-- One level of the tree: neighbours combine. -/
def pairUp {α : Type} (f : α → α → α) : List α → List α
  | a :: b :: r => f a b :: pairUp f r
  | l => l

/-- The tree over 256 lanes. -/
def laneTree {α : Type} (f : α → α → α) (l : List α) : List α := (List.range 8).foldl (fun l _ => pairUp f l) l

/-- The root pair (s, c) of the lane procedure. -/
def lanePair (xs : List Rat) : Rat × Rat :=
  (laneTree laneCombine (laneRun laneStep (xs.length + 1) (List.replicate 256 (0, 0)) xs)).headD (0, 0)

/-- The exact value s(0) + c(0); a NaR element makes it NaR (R110). -/
def laneSum (xs : List Val) : Val :=
  if xs.all Val.isReal then
    let p := lanePair (xs.map Val.toRat)
    .fin (p.1 + p.2)
  else .nar

/-! ### Statistics blocks -/

/-- The figures of R127 for one instruction. -/
structure StatFig where
  nConv  : Nat
  sse    : Rat × Rat
  ssq    : Rat × Rat
  maxErr : Rat
  maxIdx : Nat
  nEsc   : Nat
  nFull  : Nat
  nNon   : Nat
  nSat   : Nat
  deriving DecidableEq, Repr

/-- The error of a result (R127). Of a real source whose IEEE result is infinite, R127 states no error: it is taken as 0 minus the
source, and the result counts as real (log entry 141, DESIGN CHOICE). -/
def Res.err (r : Res) : Rat := r.val.toRat - r.src.toRat

/-- Real results only count with their error; others stand in their lanes as 0 (log entry 32). -/
def statFig (rs : List Res) (full : Nat) : StatFig :=
  let on := fun (g : Res → Rat) (r : Res) => if r.kind = .real then g r else 0
  let best := ((List.range rs.length).zip rs).foldl (fun (b : Rat × Nat × Bool) (i, r) =>
    if r.kind = .real && (!b.2.2 || decide (b.1 < ratAbs r.err)) then (ratAbs r.err, i, true) else b) (0, 0, false)
  { nConv := (rs.filter fun r => r.kind == .real).length
    sse := lanePair (rs.map (on fun r => r32 (r.err * r.err)))
    ssq := lanePair (rs.map (on fun r => r32 (r.src.toRat * r.src.toRat)))
    maxErr := best.1, maxIdx := best.2.1
    nEsc := (rs.filter fun r => r.kind == .escaped).length
    nFull := full
    nNon := (rs.filter fun r => r.kind == .nonreal).length
    nSat := (rs.filter fun r => r.sat).length }

/-- A stored (s, c) pair joins a new one, stored pair first; a NaR in the block stays NaR (R128). -/
def joinPair (s c : Val) (n : Rat × Rat) : Val × Val :=
  match s, c with
  | .fin a, .fin b => let p := laneCombine (a, b) n; (.fin p.1, .fin p.2)
  | _, _ => (.nar, .nar)

def addCap (w a b : Nat) : Nat := Nat.min (a + b) (2 ^ w - 1)

/-- Write or update a statistics block in the instruction's last cycle (R127, R128); address 0 is none (R115). -/
def State.putStat (s : State) (f : FaceId) (st : Stat) (rs : List Res) (full : Nat) : State :=
  if st.addr = 0 then s
  else
    let g := statFig rs full
    let a := st.addr.toNat
    let p32 := fun (v : Val) => leBytes 4 (positEncode 32 v)
    if st.acc then
      let (_, pm, s) := s.spLoad f a 64
      let n := fun off k => s.mem.nat (spAddr f (a + off)) k
      let v := fun off => s.spPosit32 f (a + off)
      let sse := joinPair (v 8) (v 12) g.sse
      let ssq := joinPair (v 16) (v 20) g.ssq
      let stored := v 24
      let newMax := positDecode 32 (positRound 32 g.maxErr)
      let larger := match stored with
        | .fin q => decide (q < newMax.toRat)
        | _ => false
      let body := leBytes 8 (addCap 64 (n 0 8) g.nConv) ++ p32 sse.1 ++ p32 sse.2 ++ p32 ssq.1 ++ p32 ssq.2
        ++ p32 (if larger then newMax else stored) ++ leBytes 4 (if larger then g.maxIdx else n 28 4)
        ++ leBytes 4 (addCap 32 (n 32 4) g.nEsc) ++ leBytes 4 (addCap 32 (n 36 4) g.nFull)
        ++ leBytes 4 (addCap 32 (n 40 4) g.nNon) ++ leBytes 4 (addCap 32 (n 44 4) g.nSat) ++ leBytes 2 2 ++ zeros 14
      -- a count read from a poisoned word has no NaR to become: its word keeps the mark (R248)
      let bad := fun off => pm && s.mem.marked (spAddr f (a + off)) 4
      let ws := (byteWrites (spAddr f a) body false).map fun w =>
        let off := w.addr / 8 - spAddr f a
        let word := off / 8 * 8
        if word = 0 ∨ (24 ≤ word ∧ word < 48) then { w with mark := bad word || bad (word + 4) } else w
      s.spWrite f ws
    else
      s.spBytes f a (leBytes 8 g.nConv ++ p32 (.fin g.sse.1) ++ p32 (.fin g.sse.2) ++ p32 (.fin g.ssq.1) ++ p32 (.fin g.ssq.2)
        ++ p32 (.fin g.maxErr) ++ leBytes 4 g.maxIdx ++ leBytes 4 g.nEsc ++ leBytes 4 g.nFull ++ leBytes 4 g.nNon
        ++ leBytes 4 g.nSat ++ leBytes 2 2 ++ zeros 14)

end Sys2Proof.Machine
end

