-- ==== Sys2Proof/Machine/Descriptors.lean ====
section
/-! DEFINITION. The 32-byte layouts of stream descriptors (R99) and of spall list descriptors (R117), little-endian, with their
reserved bits. -/

namespace Sys2Proof.Machine

/-- The stream descriptor that 32 bytes spell (R99). -/
def streamOfBytes (b : List Byte) : StreamDesc :=
  let w0 := leAt b 0 4
  let w4 := leAt b 4 1
  { base := BitVec.ofNat 27 (bits w0 26 0), fmt := BitVec.ofNat 4 (bits w4 3 0), ver := BitVec.ofNat 4 (bits w4 7 4)
    spallId := BitVec.ofNat 8 (leAt b 6 1)
    cnt0 := BitVec.ofNat 16 (leAt b 8 2), cnt1 := BitVec.ofNat 16 (leAt b 10 2), cnt2 := BitVec.ofNat 16 (leAt b 12 2)
    cnt3 := BitVec.ofNat 16 (leAt b 14 2)
    str0 := BitVec.ofNat 32 (leAt b 16 4), str1 := BitVec.ofNat 32 (leAt b 20 4), str2 := BitVec.ofNat 32 (leAt b 24 4)
    str3 := BitVec.ofNat 32 (leAt b 28 4)
    rsvd := BitVec.ofNat 21 (bits w0 31 27 + 2 ^ 5 * leAt b 5 1 + 2 ^ 13 * leAt b 7 1) }

/-- The 32 bytes of a stream descriptor (R99). -/
def streamBytes (d : StreamDesc) : List Byte :=
  let r := d.rsvd.toNat
  leBytes 4 (d.base.toNat + 2 ^ 27 * bits r 4 0)
    ++ [BitVec.ofNat 8 (d.fmt.toNat + 16 * d.ver.toNat), BitVec.ofNat 8 (bits r 12 5), d.spallId, BitVec.ofNat 8 (bits r 20 13)]
    ++ leBytes 2 d.cnt0.toNat ++ leBytes 2 d.cnt1.toNat ++ leBytes 2 d.cnt2.toNat ++ leBytes 2 d.cnt3.toNat
    ++ leBytes 4 d.str0.toNat ++ leBytes 4 d.str1.toNat ++ leBytes 4 d.str2.toNat ++ leBytes 4 d.str3.toNat

/-- The spall list descriptor that 32 bytes spell (R117). -/
def spallOfBytes (b : List Byte) : SpallDesc :=
  let w0 := leAt b 0 4
  let w4 := leAt b 4 4
  let c := leAt b 16 1
  { pbase := BitVec.ofNat 27 (bits w0 26 0), tbase := BitVec.ofNat 27 (bits w4 26 0), units := BitVec.ofNat 32 (leAt b 8 4)
    pitch := BitVec.ofNat 32 (leAt b 12 4), scode := BitVec.ofNat 3 (bits c 2 0), rows := bit c 3
    ver := BitVec.ofNat 4 (bits c 7 4)
    rsvd := BitVec.ofNat 130 (bits w0 31 27 + 2 ^ 5 * bits w4 31 27 + 2 ^ 10 * leAt b 17 15) }

/-- The 32 bytes of a spall list descriptor (R117). -/
def spallBytes (l : SpallDesc) : List Byte :=
  let r := l.rsvd.toNat
  leBytes 4 (l.pbase.toNat + 2 ^ 27 * bits r 4 0) ++ leBytes 4 (l.tbase.toNat + 2 ^ 27 * bits r 9 5) ++ leBytes 4 l.units.toNat
    ++ leBytes 4 l.pitch.toNat ++ [BitVec.ofNat 8 (l.scode.toNat + 8 * b2n l.rows + 16 * l.ver.toNat)] ++ leBytes 15 (bits r 129 10)

/-- The entry of a spall table that a SPALL_ID names: 0 names none, and 1 to 255 an entry (R99, R117). -/
def spallEntry (t : List SpallDesc) (id : Byte) : Option SpallDesc := if id = 0 then none else t[id.toNat - 1]?

end Sys2Proof.Machine
end

