-- ==== Sys2Proof/Machine/Verify.lean ====
section
/-! DEFINITION. The operand checks that PROG_VERIFY makes on a tick program's instructions (R99 to R117, R50, R66, R82, R122,
R131, R179, R387): the number of the rule that an instruction breaks, if any. No loaded program holds an instruction that breaks
one. `c` is the loaded program's spall table, where it is known. -/

namespace Sys2Proof.Machine

/-- The rule of the first check that fails. -/
def checks : List (Bool × Nat) → Option Nat
  | [] => none
  | (ok, r) :: l => if ok then checks l else some r

def firstOf : List (Option Nat) → Option Nat
  | [] => none
  | none :: l => firstOf l
  | some r :: _ => some r

/-! ### Streams and spall lists -/

/-- The spall table of the program, `none` where the check knows no program. -/
abbrev Tbl := Option (List SpallDesc)

/-- The resolved list of an operand is the entry that its SPALL_ID names (R99, R117). -/
def tableRule (c : Tbl) (id : Byte) (l : Option SpallDesc) : Option Nat :=
  checks [((id == 0) == l.isNone, 99), ((match c with | some t => l == spallEntry t id | none => true), 117)]

def spanTerm (c : BitVec 16) (st : BitVec 32) : Int := ((c.toNat : Int) - 1) * st.toInt

/-- Lowest and highest bit offset of a stream's elements. -/
def streamLo (d : StreamDesc) : Int :=
  let sb : Int := (StreamFmt d).strideBits
  let t := fun c st => min 0 (spanTerm c st)
  8 * d.base.toNat + sb * (t d.cnt0 d.str0 + t d.cnt1 d.str1 + t d.cnt2 d.str2 + t d.cnt3 d.str3)

def streamHi (d : StreamDesc) : Int :=
  let sb : Int := (StreamFmt d).strideBits
  let t := fun c st => max 0 (spanTerm c st)
  8 * d.base.toNat + sb * (t d.cnt0 d.str0 + t d.cnt1 d.str1 + t d.cnt2 d.str2 + t d.cnt3 d.str3) + (StreamFmt d).bits

/-- Every element's offset from the first is a multiple of `m` bits. -/
def stridesMultiple (d : StreamDesc) (m : Int) : Bool :=
  let sb : Int := (StreamFmt d).strideBits
  let ok := fun (c : BitVec 16) (st : BitVec 32) => decide (c.toNat ≤ 1) || decide (sb * st.toInt % m = 0)
  ok d.cnt0 d.str0 && ok d.cnt1 d.str1 && ok d.cnt2 d.str2 && ok d.cnt3 d.str3

/-- The checks of R117 on a spall list descriptor. -/
def spallRule (l : SpallDesc) : Option Nat :=
  checks [
    (l.ver == 2, 117), (l.rsvd == 0, 5), (decide (l.scode.toNat ≤ 4), 117), (decide (1 ≤ l.units.toNat ∧ l.units.toNat ≤ 2 ^ 27), 117),
    (decide (0 < l.pitch.toNat), 117), (decide (l.pbase.toNat % 1024 = 0), 117),
    (decide (l.pbase.toNat + ceilDiv l.units.toNat 32 * (slotsOf l.scode * 16) ≤ spSize), 101)]

/-- An operand's list, where it has one, is the table's and passes its checks. -/
def namedRule (c : Tbl) (id : Byte) (l : Option SpallDesc) : Option Nat :=
  firstOf [tableRule c id l, match l with | some l => spallRule l | none => none]

/-- R118: every unit of a BP stream starts at TBASE plus a multiple of PITCH and lies below UNITS. -/
def unitsRule (d : StreamDesc) (l : SpallDesc) : Option Nat :=
  let tb : Int := 8 * l.tbase.toNat
  let p : Int := 8 * l.pitch.toNat
  checks [
    (!l.rows, 118), (decide (tb ≤ streamLo d), 118), (decide ((8 * (d.base.toNat : Int) - tb) % p = 0), 118),
    (stridesMultiple d p, 118), (decide ((streamHi d - (StreamFmt d).bits - tb) / p < l.units.toNat), 118)]

/-- What R99 to R101 ask of any descriptor. -/
def descRule (d : StreamDesc) : Option Nat :=
  checks [
    (d.ver == 2, 101), (d.rsvd == 0, 5), ((Fmt.ofCode d.fmt).isSome, 100),
    (decide (d.cnt0 ≠ 0 ∧ d.cnt1 ≠ 0 ∧ d.cnt2 ≠ 0 ∧ d.cnt3 ≠ 0), 99), (decide (streamCount d ≤ 2 ^ 31), 101)]

/-- R99 to R101 for a stream of the scratchpad. -/
def streamRule (c : Tbl) (st : Stream) : Option Nat :=
  let d := st.desc
  firstOf [
    descRule d, namedRule c d.spallId st.spall,
    checks [
      (decide (0 ≤ streamLo d), 101), (decide (streamHi d ≤ 8 * spSize), 101),
      (decide ((8 * d.base.toNat) % (StreamFmt d).alignBits = 0), 101), (stridesMultiple d (StreamFmt d).alignBits, 101)],
    match st.spall with
    | some l => if (StreamFmt d).isBp then unitsRule d l else none
    | none => none]

/-- Elements of `n` bits at rising offsets, each starting at or above the end of the one before it. -/
def risingBy (n : Int) : List Int → Bool
  | a :: b :: r => decide (a + n ≤ b) && risingBy n (b :: r)
  | _ => true

/-- Elements of `n` bits of which no two share a bit. -/
def disjointBy (n : Int) : List Int → Bool
  | [] => true
  | a :: r => (r.all fun b => decide (a + n ≤ b) || decide (b + n ≤ a)) && disjointBy n r

/-- No write stream reaches one address twice (R101). -/
def writeRule (c : Tbl) (st : Stream) : Option Nat :=
  let n : Int := (StreamFmt st.desc).bits
  firstOf [streamRule c st, checks [(risingBy n (streamOffs st.desc) || disjointBy n (streamOffs st.desc), 101)]]

/-- A mask governs a value stream element by element (R388). -/
def maskRule (c : Tbl) (m : Stream) (n : Nat) : Option Nat :=
  firstOf [streamRule c m, checks [(StreamFmt m.desc == .mask, 388), (streamCount m.desc == n, 388)]]

/-- A write stream with its mask (R169). -/
def dstRule (c : Tbl) (d : Dst) : Option Nat :=
  firstOf [writeRule c d.st, match d.mask with
    | some (m, _) => maskRule c m (streamCount d.st.desc)
    | none => none]

def dstFmt (d : Dst) : Fmt := StreamFmt d.st.desc
def dstValues (d : Dst) : Nat := streamCount d.st.desc * (dstFmt d).valuesPer

/-- A read operand: a queue read uses its descriptor's counts, FMT and SPALL_ID alone (R106). -/
def srcRule (c : Tbl) : Src → Option Nat
  | .mem st => streamRule c st
  | .queue tsw st => firstOf [descRule st.desc, namedRule c st.desc.spallId st.spall, checks [(decide (tsw.toNat + 16 ≤ spSize), 106)]]

/-- Values of a read operand (R103). -/
def srcValues (s : Src) : Nat := srcCount s * (srcFmt s).valuesPer

def isQueue : Src → Bool
  | .queue .. => true
  | _ => false

/-- At most one read stream is the queue (R106). -/
def oneQueue (l : List Src) : Bool := decide ((l.filter isQueue).length ≤ 1)

/-- POLICY and ESC_THRESH of a write that may be BP (R115). -/
def encRule (d : Dst) (e : BpEnc) : Option Nat :=
  if (dstFmt d).isBp then
    checks [(bits e.esc.toNat 6 5 == 0, 115), (!bit e.esc.toNat 7 || d.st.spall.isSome, 115)]
  else none

/-- SR only on posit targets (R113). -/
def srRule (d : Dst) (sr : Bool) : Option Nat := checks [(!sr || (dstFmt d).isPosit, 113)]

/-- A count word and a statistics block lie inside the scratchpad. -/
def inSp (off n : Nat) : Bool := decide (off + n ≤ spSize)
def cntRule : Option SpOff → Option Nat
  | some w => checks [(inSp w.toNat 4, 103)]
  | none => none
def statRule (st : Stat) : Option Nat := checks [(st.addr == 0 || inSp st.addr.toNat 64, 127)]

/-- A kept copy (R157): a write stream of the instruction's results, of a format that the first write stream could have. -/
def keptRule (c : Tbl) (k : Option Kept) (y : Dst) (e : BpEnc) (sr : Bool) : Option Nat :=
  match k with
  | none => none
  | some k => firstOf [
      dstRule c k.y, encRule k.y e, srRule k.y sr,
      checks [(decide (0 < k.rowLen), 157), (dstFmt k.y == dstFmt y || ((dstFmt k.y).isPositOrBp && (dstFmt y).isPositOrBp), 157),
        (dstValues k.y == dstValues y, 103)]]

/-! ### Vector engine -/

/-- Operands all posit or BP, or all INT (R105). -/
def sameClass (fs : List Fmt) : Bool := fs.all (·.isPositOrBp) || fs.all (·.isInt)

/-- Read streams of equal length, and a write stream that holds every result (R103). -/
def lengthRule (srcs : List Src) (y : Dst) : Option Nat :=
  let ns := srcs.map srcValues
  checks [
    (ns.all fun a => ns.all fun b => a == b, 103),
    (ns.all fun a => decide (a ≤ dstValues y), 103)]

/-- Element-wise arithmetic: `ints` says that INT operands are allowed, `to32` that an INT result must be INT32. R105 names ADD, SUB and
MUL for INT operands and says of no other instruction that it takes them or refuses them; the callers below let MAX, MIN, ABS, NEG
and the compares take them into any INT format, and MULADD, DIV and SQRT refuse them (log entry 137, DESIGN CHOICE). -/
def arithRule (c : Tbl) (srcs : List Src) (y : Dst) (cnt : Option SpOff) (e : BpEnc) (sr ints to32 : Bool) (kept : Option Kept) :
    Option Nat :=
  let fs := srcs.map srcFmt
  let int := fs.any (·.isInt)
  firstOf [
    firstOf (srcs.map (srcRule c)), dstRule c y, cntRule cnt,
    checks [
      (oneQueue srcs, 106), (sameClass fs, 105), (!int || ints, 105),
      (!int || (if to32 then dstFmt y == .int32 else (dstFmt y).isInt), 105),
      (int || !(fs.any (·.isPositOrBp)) || (dstFmt y).isPositOrBp, 105),
      ((dstFmt y).isPositOrBp || (dstFmt y).isInt, 105)],
    lengthRule srcs y, encRule y e, srRule y sr, keptRule c kept y e sr]

def addRule (c : Tbl) (o : Vec2) : Option Nat := arithRule c [o.a, o.b] o.y o.cnt o.enc o.sr true true o.kept
def muladdRule (c : Tbl) (o : Vec3) : Option Nat := arithRule c [o.a, o.b, o.c] o.y o.cnt o.enc o.sr false true o.kept
def maxRule (c : Tbl) (o : Vec2) : Option Nat :=
  firstOf [checks [(!o.sr, 113)], arithRule c [o.a, o.b] o.y o.cnt o.enc false true false o.kept]
def absRule (c : Tbl) (o : Vec1) : Option Nat := arithRule c [o.a] o.y o.cnt o.enc false true false o.kept
def divRule (c : Tbl) (o : Vec2) : Option Nat :=
  firstOf [checks [(!o.sr, 113)], arithRule c [o.a, o.b] o.y o.cnt o.enc false false true o.kept]
def sqrtRule (c : Tbl) (o : Vec1) : Option Nat := arithRule c [o.a] o.y o.cnt o.enc false false true o.kept

def cmpRule (c : Tbl) (o : Vec2) : Option Nat :=
  firstOf [
    firstOf [srcRule c o.a, srcRule c o.b, dstRule c o.y, cntRule o.cnt],
    checks [(oneQueue [o.a, o.b], 106), (sameClass [srcFmt o.a, srcFmt o.b], 105), (dstFmt o.y == .mask, 112),
      (!o.sr, 113)],
    lengthRule [o.a, o.b] o.y, keptRule c o.kept o.y o.enc false]

/-- One FMT over the value streams of a moving instruction, never the mask code (R387). -/
def movingRule (fs : List Fmt) (y : Fmt) : Option Nat :=
  checks [(fs.all (· == y) && y != .mask, 387)]

def selectRule (c : Tbl) (o : SelectOp) : Option Nat :=
  firstOf [
    srcRule c o.a, srcRule c o.b, dstRule c o.y, cntRule o.cnt,
    checks [(oneQueue [o.a, o.b], 106)], movingRule [srcFmt o.a, srcFmt o.b] (dstFmt o.y),
    maskRule c o.mask (srcCount o.a),
    checks [(srcCount o.a == srcCount o.b, 103), (decide (srcCount o.a ≤ streamCount o.y.st.desc), 103)]]

def compressRule (c : Tbl) (o : CompressOp) : Option Nat :=
  firstOf [
    srcRule c o.a, dstRule c o.y, cntRule o.cnt, checks [(inSp o.countW.toNat 4, 108)],
    movingRule [srcFmt o.a] (dstFmt o.y), maskRule c o.mask (srcCount o.a),
    checks [(decide (srcCount o.a ≤ streamCount o.y.st.desc), 108)]]

def expandRule (c : Tbl) (o : ExpandOp) : Option Nat :=
  firstOf [
    srcRule c o.a, dstRule c o.y, cntRule o.cnt, movingRule [srcFmt o.a] (dstFmt o.y),
    maskRule c o.mask (streamCount o.mask.desc),
    checks [(decide (streamCount o.mask.desc ≤ streamCount o.y.st.desc), 109)]]

/-- R43's table of conversions. -/
def convertible (a y : Fmt) : Bool :=
  (a.isPositOrBp || a.isInt || a.isIeee) && (y.isPositOrBp || y.isInt || y.isIeee) && !(a.isIeee && y.isIeee)

def convertRule (c : Tbl) (o : ConvertOp) : Option Nat :=
  firstOf [
    srcRule c o.a, dstRule c o.y, cntRule o.cnt, statRule o.stat,
    checks [(convertible (srcFmt o.a) (dstFmt o.y), 43)],
    lengthRule [o.a] o.y, encRule o.y o.enc, srRule o.y o.sr, keptRule c o.kept o.y o.enc o.sr]

/-- Length of dimension 0 and number of rows of a read operand, `per` values an element; a queue read has the rows of its descriptor
(R106, log entry 133). -/
def rowShape (s : Src) (per : Nat) : Nat × Nat :=
  let d := (srcStream s).desc
  (d.cnt0.toNat * per, d.cnt1.toNat * d.cnt2.toNat * d.cnt3.toNat)

/-- R122: posit or IEEE rows into INT8 or INT4 rows of the same shape, with a KIND 1 spall list whose units are the rows: each starts at
TBASE plus a multiple of PITCH and lies below UNITS (R118). -/
def quantRule (c : Tbl) (o : QuantOp) : Option Nat :=
  let d := o.y.st.desc
  let rows := d.cnt1.toNat * d.cnt2.toNat * d.cnt3.toNat
  let starts := streamOffs { d with cnt0 := 1 }
  firstOf [
    srcRule c o.a, dstRule c o.y, cntRule o.cnt, statRule o.stat,
    checks [
      ((srcFmt o.a).isPosit || (srcFmt o.a).isIeee, 122), (dstFmt o.y == .int8 || dstFmt o.y == .int4, 122),
      (rowShape o.a 1 == (d.cnt0.toNat, rows), 122), (inSp o.recs.toNat (16 * rows), 122),
      (bits o.esc.toNat 6 5 == 0, 115), (!bit o.esc.toNat 7 || d.spallId ≠ 0, 115)],
    match o.y.st.spall with
    | some l =>
      let tb : Int := 8 * l.tbase.toNat
      let p : Int := 8 * l.pitch.toNat
      checks [(l.rows, 118),
        (starts.all fun a => decide (tb ≤ a) && decide ((a - tb) % p = 0) && decide ((a - tb) / p < l.units.toNat), 118)]
    | none => none]

/-- R125, R126. E is 2 passes where the rows can hold escapes, that is, where the QUANT that wrote their records had its escapes on
(log entry 135). -/
def intFinishRule (c : Tbl) (o : IntFinishOp) : Option Nat :=
  firstOf [
    srcRule c o.acc, dstRule c o.y, cntRule o.cnt, statRule o.stat, srcRule c o.colsum, streamRule c o.zw, streamRule c o.w,
    checks [
      (oneQueue [o.acc, o.colsum], 106),
      (srcFmt o.acc == .int32, 125), (srcValues o.acc == o.m * o.n, 125),
      (decide (o.m * o.n ≤ dstValues o.y), 103), ((dstFmt o.y).isPositOrBp, 125),
      (srcFmt o.colsum == .int32 && srcCount o.colsum == o.n, 125),
      (StreamFmt o.zw.desc == .int8 && streamCount o.zw.desc == o.n, 125),
      (StreamFmt o.w.desc == .int8 || StreamFmt o.w.desc == .int4, 125), (streamCount o.w.desc == o.k * o.n, 125),
      (inSp o.recs.toNat (16 * o.m), 125), (inSp o.tsw.toNat 16, 125), (o.passes == 0 || o.passes == 2, 126),
      (!o.qEsc || o.passes == 2, 126)],
    namedRule c o.spallId o.spall,
    match o.spall with
    | some l => checks [(l.rows, 118), (decide (o.unit0 + o.m ≤ l.units.toNat), 118)]
    | none => none,
    encRule o.y o.enc, keptRule c o.kept o.y o.enc false]

/-- Groups of a reduction: dimension 0, or dimensions 0 and 1 (R110); a queue operand's dimensions are its descriptor's (log entry
133). -/
def groupLen (s : Src) (two : Bool) (per : Nat) : Nat :=
  let d := (srcStream s).desc
  d.cnt0.toNat * (if two then d.cnt1.toNat else 1) * per

def groupCount (s : Src) (two : Bool) : Nat := ceilDiv (srcCount s) (groupLen s two 1)

def sumRule (c : Tbl) (o : SumOp) : Option Nat :=
  firstOf [
    srcRule c o.a, dstRule c o.y, cntRule o.cnt,
    checks [((srcFmt o.a).isPositOrBp, 110), ((dstFmt o.y).isPositOrBp, 110),
      (decide (groupCount o.a o.two ≤ dstValues o.y), 103)],
    encRule o.y o.enc]

def redRule (c : Tbl) (o : RedOp) : Option Nat :=
  let ok := fun (f : Fmt) => f.isPosit || f == .int32
  firstOf [
    srcRule c o.a, dstRule c o.y, dstRule c o.idx, cntRule o.cnt,
    checks [
      (ok (srcFmt o.a), 111), (dstFmt o.idx == .int32, 111),
      (if (srcFmt o.a).isPosit then (dstFmt o.y).isPosit else dstFmt o.y == .int32, 111),
      (ok (dstFmt o.y), 111), (decide (groupCount o.a o.two ≤ streamCount o.y.st.desc), 103),
      (decide (groupCount o.a o.two ≤ streamCount o.idx.st.desc), 103)]]

/-- Two recorded pairs and BASEs agree; only a BP pair has a BASE (R50). -/
def sameQuires (a b : Pair × Int) : Bool := a.1 == b.1 && (!(a.1 == .bp8 || a.1 == .bp16) || a.2 == b.2)

/-- R107: one width, and no quires traced to different pairs or BASEs. -/
def qaddRule (c : Tbl) (o : QaddOp) : Option Nat :=
  firstOf [
    streamRule c o.a, streamRule c o.b, dstRule c o.y, cntRule o.cnt,
    checks [
      ((dstFmt o.y).isQuire && StreamFmt o.a.desc == dstFmt o.y && StreamFmt o.b.desc == dstFmt o.y, 107), ((match o.aOf, o.bOf with | some a, some b => sameQuires a b | _, _ => true), 107),
      (streamCount o.a.desc == streamCount o.b.desc, 103), (decide (streamCount o.a.desc ≤ streamCount o.y.st.desc), 103)]]

def tswTestRule (o : TswTestOp) : Option Nat := checks [(inSp o.tsw.toNat 16, 106), (inSp o.out.toNat 4, 106)]

/-! ### Function unit and normaliser -/

/-- Posit arguments and posit results only (R131). -/
def fnRule (c : Tbl) (srcs : List Src) (y : Dst) (cnt : Option SpOff) (kept : Option Kept) : Option Nat :=
  firstOf [
    firstOf (srcs.map (srcRule c)), dstRule c y, cntRule cnt,
    checks [(oneQueue srcs, 106), (srcs.all fun x => (srcFmt x).isPosit, 131), ((dstFmt y).isPosit, 131),
      (match kept with | some k => (dstFmt k.y).isPosit | none => true, 131)],
    lengthRule srcs y, keptRule c kept y ⟨false, 0⟩ false]

def optMaskRule (c : Tbl) (m : Option Stream) (n : Nat) : Option Nat := match m with | some m => maskRule c m n | none => none

def smax1Rule (c : Tbl) (o : Smax1Op) : Option Nat :=
  firstOf [srcRule c o.a, cntRule o.cnt, optMaskRule c o.mask (srcCount o.a),
    checks [((srcFmt o.a).isPosit, 131), (inSp o.recs.toNat (8 * (rowShape o.a 1).2), 150)]]

def smax2Rule (c : Tbl) (o : Smax2Op) : Option Nat :=
  firstOf [srcRule c o.a, cntRule o.cnt, optMaskRule c o.mask (srcCount o.a), dstRule c o.y,
    checks [((srcFmt o.a).isPosit, 131), ((dstFmt o.y).isPositOrBp, 131),
      (inSp o.recs.toNat (8 * (rowShape o.a 1).2), 151)],
    lengthRule [o.a] o.y, encRule o.y o.enc, keptRule c o.kept o.y o.enc false]

def normStatsRule (c : Tbl) (o : NormStatsOp) : Option Nat :=
  firstOf [srcRule c o.a, cntRule o.cnt,
    checks [((srcFmt o.a).isPosit, 153), (inSp o.recs.toNat (16 * (rowShape o.a 1).2), 153)]]

/-- A parameter stream of the normaliser: posit or BP values that pair with the rows. -/
def paramRule (c : Tbl) (p : Option Src) (n : Nat) : Option Nat :=
  match p with
  | some p => firstOf [srcRule c p, checks [((srcFmt p).isPositOrBp, 154), (n == srcValues p, 103)]]
  | none => none

def normApplyRule (c : Tbl) (o : NormApplyOp) : Option Nat :=
  firstOf [srcRule c o.a, cntRule o.cnt, dstRule c o.y, paramRule c o.gamma (srcValues o.a), paramRule c o.beta (srcValues o.a),
    checks [(oneQueue (o.a :: (o.gamma.toList ++ o.beta.toList)), 106), ((srcFmt o.a).isPositOrBp, 154),
      ((dstFmt o.y).isPositOrBp, 154), (inSp o.recs.toNat (16 * (rowShape o.a 1).2), 154)],
    lengthRule [o.a] o.y, encRule o.y o.enc, keptRule c o.kept o.y o.enc false]

/-- The operands of a gradient: posit or BP values, as many of each (R103, R166, R168). -/
def gradSrcs (c : Tbl) (l : List Src) (cnt : Option SpOff) (rule : Nat) : Option Nat :=
  firstOf [firstOf (l.map (srcRule c)), cntRule cnt,
    checks [(oneQueue l, 106), (l.all fun x => (srcFmt x).isPositOrBp, rule),
      (l.all fun a => l.all fun b => srcValues a == srcValues b, 103)]]

/-- A gradient's write stream: posit, or BP under the fields of R115. -/
def gradDst (c : Tbl) (y : Dst) (e : BpEnc) (n rule : Nat) : Option Nat :=
  firstOf [dstRule c y, checks [((dstFmt y).isPositOrBp, rule), (decide (n ≤ dstValues y), 103)], encRule y e]

/-- R166, R167: the CZ1 mode needs a kept record, which only the program's BSTAT decides. -/
def normGrad1Rule (c : Tbl) (bstat : Bool) (o : NormGrad1Op) : Option Nat :=
  firstOf [gradSrcs c [o.x, o.dy, o.gamma] o.cnt 166,
    checks [(inSp o.recs.toNat (16 * (rowShape o.x 1).2), 166), (!bstat || o.fwd.isSome, 167)]]

def normGrad2Rule (c : Tbl) (o : NormGrad2Op) : Option Nat :=
  firstOf [gradSrcs c [o.x, o.dy, o.gamma] o.cnt 166, gradDst c o.y o.enc (srcValues o.x) 166,
    match o.dyx with
    | some d => firstOf [dstRule c d, checks [(dstFmt d == .posit32, 167), (decide (srcValues o.x ≤ dstValues d), 103)]]
    | none => none,
    checks [(inSp o.recs.toNat (16 * (rowShape o.x 1).2), 166)]]

/-- The mask of a soft-maximum gradient governs y's descriptor elements (R388). -/
def smaxGrad1Rule (c : Tbl) (o : SmaxGrad1Op) : Option Nat :=
  firstOf [gradSrcs c [o.yv, o.dy] o.cnt 168, optMaskRule c o.mask (srcCount o.yv),
    checks [(inSp o.out.toNat (4 * (rowShape o.yv 1).2), 168)]]

def smaxGrad2Rule (c : Tbl) (o : SmaxGrad2Op) : Option Nat :=
  firstOf [gradSrcs c [o.yv, o.dy] o.cnt 168, optMaskRule c o.mask (srcCount o.yv), gradDst c o.y o.enc (srcValues o.yv) 168,
    checks [(inSp o.d.toNat (4 * (rowShape o.yv 1).2), 168)]]

/-! ### Gangsaw (R179) -/

def optIn (o : Option SpOff) (n : Nat) : Bool := match o with | some a => inSp a.toNat n | none => true

/-- Posit streams of one shape. -/
def positStreams (c : Tbl) (l : List Stream) (rule : Nat) : Option Nat :=
  firstOf [firstOf (l.map (streamRule c)),
    checks [(l.all fun st => (StreamFmt st.desc).isPosit, rule),
      (l.all fun a => l.all fun b => streamCount a.desc == streamCount b.desc, 103)]]

/-- An address field of which 0 means none lies in the scratchpad with its `n` bytes. -/
def addrIn (a : SpOff) (n : Nat) : Bool := a == 0 || inSp a.toNat n

def gsScanRule (c : Tbl) (o : GsScanOp) : Option Nat :=
  firstOf [
    positStreams c [o.a, o.x] 179, positStreams c [o.b, o.c] 179, dstRule c o.y,
    checks [
      (decide (1 ≤ o.len ∧ o.len ≤ 256), 178), (decide (1 ≤ o.g ∧ o.g ≤ 16), 171), (decide (1 ≤ o.span ∧ o.span ≤ 16), 171),
      (decide (1 ≤ o.ch ∧ o.ch ≤ 65535), 179), (decide (o.ch % o.span = 0), 179),
      (streamCount o.a.desc == o.len * o.ch, 179), (streamCount o.b.desc == o.len * o.ch * o.g, 179),
      (streamCount o.y.st.desc == o.len * (o.ch / o.span), 179), ((dstFmt o.y).isPosit, 179),
      (decide (o.coff % 4 = 0), 179), (o.cin.isSome || decide (o.coff + 4 * (o.ch * o.g) ≤ 0x40000), 179),
      (decide (o.coff + 4 * (o.ch * o.g) ≤ 0x40000), 179), (optIn o.cin (4 * (o.ch * o.g)), 179),
      (optIn o.cout (4 * (o.ch * o.g)), 179), (addrIn o.rmap 32, 179), (addrIn o.init (4 * (o.ch * o.g)), 179),
      (inSp o.ssw.toNat 16, 179), (o.rmap == 0 || o.init != 0 || o.zeroInit, 179)]]

/-! ### Bench -/

/-- K-tile length (R81). -/
def kTile : Pair → Nat
  | .posit16 | .bp16 => 256
  | .posit8 | .bp8 | .int8 => 512
  | .int4 => 1024
  | .posit32 => 64

/-- The element format of a pair. -/
def pairFmt : Pair → Fmt
  | .posit8 => .posit8 | .posit16 => .posit16 | .posit32 => .posit32 | .bp8 => .bp8 | .bp16 => .bp16
  | .int8 => .int8 | .int4 => .int4

def pairBp : Pair → Bool
  | .bp8 | .bp16 => true
  | _ => false
def pairInt : Pair → Bool
  | .int8 | .int4 => true
  | _ => false

/-- Rows of an output tile (R82, R92). -/
def pairRows (p : Pair) (trans : Bool) (w : Nat) : Nat :=
  if trans then
    match p with
    | .posit16 | .bp16 => w
    | .posit8 | .bp8 | .int8 => w / 2
    | .int4 => w / 4
    | .posit32 => 2 * w
  else match p with
    | .posit32 => 128
    | _ => 256

/-- Columns of an output tile. -/
def pairCols (p : Pair) (trans : Bool) (w : Nat) : Nat := if trans then kTile p else w

def baseOk (b : Int) : Bool := decide (-256 ≤ b) && decide (b ≤ 255)

/-- R82, R85 at Bench width w. -/
def benchReadRule (c : Tbl) (trans : Bool) (w : Nat) (o : BenchRead) : Option Nat :=
  firstOf [
    streamRule c o.act,
    checks [
      (StreamFmt o.act.desc == pairFmt o.pair, 50), (baseOk o.base, 50), (decide (o.row < pairRows o.pair trans w), 82),
      (decide (streamCount o.act.desc * (StreamFmt o.act.desc).valuesPer ≤ (if trans then w else kTile o.pair)), 82),
      (!(trans && pairBp o.pair) || w % 32 == 0, 85)]]

/-- Bytes of a stationary image (R87). -/
def imageBytes (p : Pair) (w : Nat) : Nat :=
  match p with
  | .bp8 => w * 16 * 36
  | .bp16 => w * 8 * 68
  | .int4 => w * 512
  | .posit32 => w * 256
  | _ => w * 512

def weightLoadRule (c : Tbl) (w : Nat) (o : WeightLoadOp) : Option Nat :=
  firstOf [
    checks [(decide (o.image.toNat % 2048 = 0), 87), (inSp o.image.toNat (imageBytes o.pair w), 101)],
    namedRule c o.spallId o.spall]

def isRaw : DrainDst → Bool
  | .raw .. => true
  | .queue => false

/-- Format of a drain's output: OFMT 7 is the raw quire of the pair. -/
def rawFmt (p : Pair) : Fmt :=
  match p with
  | .posit8 => .quire128
  | .posit32 => .quire512
  | _ => .quire256

def ofmtFmt (c : BitVec 4) (p : Pair) : Option Fmt :=
  match c.toNat with
  | 1 => some .posit8 | 2 => some .posit16 | 3 => some .posit32 | 4 => some .bp8 | 5 => some .bp16 | 6 => some .int32
  | 7 => some (rawFmt p)
  | _ => none

/-- Formats of a preload or fused tensor (R59, R66). -/
def addendFmt (f : Fmt) : Bool := f.isPositOrBp || f == .int32

/-- R59, R60: the shape and format of a preload; a raw one was drained from the same pair, and for a BP pair under the same BASE. -/
def preloadRule (c : Tbl) (o : DrainOp) : Option Nat :=
  match o.next with
  | .zero => none
  | .tensor st => firstOf [streamRule c st, checks [(addendFmt (StreamFmt st.desc), 59),
      (streamCount st.desc * (StreamFmt st.desc).valuesPer == o.nRows * o.nCols, 59)]]
  | .raw st of_ => firstOf [streamRule c st, checks [(StreamFmt st.desc == rawFmt o.nPair, 60),
      (streamCount st.desc == o.nRows * o.nCols, 60), (sameQuires of_ (o.nPair, o.nBase), 60)]]

/-- A check on a format that a code may not name. -/
def fmtIs (o : Option Fmt) (p : Fmt → Bool) : Bool := match o with | some f => p f | none => true

def fusedRule (c : Tbl) (o : DrainOp) : Option Nat :=
  let out := ofmtFmt o.ofmt o.pair
  let shape := fun (st : Stream) => streamCount st.desc * (StreamFmt st.desc).valuesPer == o.rows * o.cols
  match o.fused with
  | .none => none
  | .add st => firstOf [streamRule c st, checks [
      (fmtIs out fun f => if f.isPositOrBp then addendFmt (StreamFmt st.desc) else f == .int32 && StreamFmt st.desc == .int32, 66),
      (shape st, 66)]]
  | .mul st => firstOf [streamRule c st, checks [
      (fmtIs out fun f => f.isPositOrBp && addendFmt (StreamFmt st.desc), 66), (shape st, 66)]]

/-- The last spall unit of a drained tile, plus one (R67, R118). -/
def drainUnits (o : DrainOp) : Nat := o.unit0 + (o.rows - 1) * o.unitStep + o.cols / 32

/-- R65 to R67, R169 at Bench width w. A drain of no rows only preloads (log entry 136). -/
def drainRule (c : Tbl) (w : Nat) (o : DrainOp) : Option Nat :=
  let out := ofmtFmt o.ofmt o.pair
  firstOf [
    checks [
      (out.isSome, 65), (o.ofmt ≠ 6 || pairInt o.pair, 65), ((o.ofmt == 7) == isRaw o.dst, 65), (baseOk o.base, 50),
      (decide (o.rows ≤ pairRows o.pair o.trans w), 82), (decide (o.cols ≤ pairCols o.pair o.trans w), 82),
      ((o.rows == 0) == (o.cols == 0), 82),
      (!(fmtIs out (·.isBp)) || o.cols % 32 == 0, 67), (o.mask.isNone || o.ofmt ≠ 7, 169),
      (!(fmtIs out (·.isBp)) || (bits o.enc.esc.toNat 6 5 == 0 && (!bit o.enc.esc.toNat 7 || o.spall.isSome)), 115),
      (baseOk o.nBase, 50), (decide (o.nRows ≤ pairRows o.nPair o.nTrans w), 82), (decide (o.nCols ≤ pairCols o.nPair o.nTrans w), 82)],
    fusedRule c o, preloadRule c o,
    match o.mask with
    | some (m, _) => maskRule c m (if fmtIs out (·.isBp) then o.rows * o.cols / 32 else o.rows * o.cols)
    | none => none,
    namedRule c o.spallId o.spall,
    match o.spall with
    | some l => checks [(decide (o.rows = 0 ∨ drainUnits o ≤ l.units.toNat), 118)]
    | none => none,
    match o.dst with
    | .raw t ts => checks [(decide (t.toNat % 16 = 0), 101), (inSp t.toNat (o.rows * o.cols * ((rawFmt o.pair).bits / 8)), 101),
        (inSp ts.toNat 16, 101)]
    | .queue => none]

/-! ### Movers, sends and add groups -/

/-- Bytes of one element of an adder format; a fragment has none of its own, its bucket gives it (R251, R300). -/
def addSize : AddFmt → Nat
  | .quire128 => 16 | .quire256 => 32 | .quire512 => 64 | .fragment => 8 | .posit16 => 2 | .posit32 => 4

def addRounded : AddFmt → Bool
  | .posit16 | .posit32 => true
  | _ => false

/-- A delay V (R217, R252). -/
def visOk (v : Nat) : Bool := decide (1 ≤ v) && decide (v ≤ 15)

def sendRule (o : SendOp) : Option Nat := checks [(visOk o.vis, 217), (decide (0 < o.bytes), 217)]

/-- The static part of R252: version, V, count, alignment, and in canonical mode a staging region that holds N contributions. -/
def groupRule (fast : Bool) (g : GroupDesc) : Option Nat :=
  checks [
    (g.ver == 2, 252), (visOk g.vis, 252), (decide (0 < g.count), 252), (decide (0 < g.n), 252),
    (decide (g.target.toNat % addSize g.fmt = 0), 251),
    (fast || decide (g.n * g.count * addSize g.fmt ≤ g.stageBytes), 252)]

/-! ### All instructions -/

/-- The rule that an instruction's operands break, whatever the module's state: Bench width, BSTAT and mode are taken as full
width, native and fast, the settings that refuse least. -/
def verify : Instr → Option Nat
  | .benchForwardRead _ o => benchReadRule none false 128 o
  | .benchTransposedRead _ o => benchReadRule none true 128 o
  | .weightLoad _ o => weightLoadRule none 96 o
  | .drain _ o => drainRule none 128 o
  | .add _ o | .sub _ o | .mul _ o => addRule none o
  | .muladd _ o => muladdRule none o
  | .max _ o | .min _ o => maxRule none o
  | .abs _ o | .neg _ o => absRule none o
  | .cmpEq _ o | .cmpLt _ o | .cmpLe _ o => cmpRule none o
  | .select _ o => selectRule none o
  | .div _ o => divRule none o
  | .sqrt _ o => sqrtRule none o
  | .convert _ o => convertRule none o
  | .quant _ o => quantRule none o
  | .intFinish _ o => intFinishRule none o
  | .sum _ o => sumRule none o
  | .maxr _ o | .minr _ o => redRule none o
  | .compress _ o => compressRule none o
  | .expand _ o => expandRule none o
  | .qadd _ o => qaddRule none o
  | .tswTest _ o => tswTestRule o
  | .spallClear _ l => namedRule none l.id (some l.desc)
  | .fnExp2 _ o | .fnLog2 _ o | .fnTab _ _ o => fnRule none [o.a] o.y o.cnt o.kept
  | .fnGate _ o => fnRule none [o.a, o.g] o.y o.cnt o.kept
  | .smax1 _ o => smax1Rule none o
  | .smax2 _ o => smax2Rule none o
  | .normStats _ o => normStatsRule none o
  | .normApply _ o => normApplyRule none o
  | .normGrad1 _ o => normGrad1Rule none false o
  | .normGrad2 _ o => normGrad2Rule none o
  | .smaxGrad1 _ o => smaxGrad1Rule none o
  | .smaxGrad2 _ o => smaxGrad2Rule none o
  | .gsScan _ o => gsScanRule none o
  | .fabricSend _ o => sendRule o
  | .atomicAdd _ o => groupRule true o.group
  | _ => none

end Sys2Proof.Machine
end

