-- ==== Sys2Proof/Machine/Waits.lean ====
section
/-! DEFINITION. When an instruction of a Face runs: the ranges of memory that it reads, the messages and add groups that it must wait
for (R217, R253), and the view of memory of a Face that has slipped (R217, R222). -/

namespace Sys2Proof.Machine

/-- Two ranges of bytes meet. -/
def meets (a n b m : Nat) : Bool := decide (a < b + m) && decide (b < a + n)

/-- A range meets one of several. -/
def meetsAny (rs : List (Nat × Nat)) (a n : Nat) : Bool := rs.any fun r => meets r.1 r.2 a n

/-- Bytes that two ranges share. -/
def shared (a n b m : Nat) : Nat := Nat.min (a + n) (b + m) - Nat.max a b

/-- Bytes of an add group's target. -/
def groupBytes (g : GroupDesc) : Nat := g.count * addSize g.fmt

/-! ### The ranges that an instruction reads -/

/-- The pages of a spall list (R117). -/
def spallRanges (f : FaceId) : Option SpallDesc → List (Nat × Nat)
  | some l => [(spAddr f l.pbase.toNat, ceilDiv l.units.toNat 32 * (slotsOf l.scode * 16))]
  | none => []

def streamReads (f : FaceId) (st : Stream) : List (Nat × Nat) :=
  ((streamAddrs f st.desc).map fun a => (a / 8, elemBytes (StreamFmt st.desc) a)) ++ spallRanges f st.spall

def srcReads (f : FaceId) : Src → List (Nat × Nat)
  | .mem st => streamReads f st
  | .queue _ st => spallRanges f st.spall

def maskReads (f : FaceId) (m : Option Stream) : List (Nat × Nat) := m.toList.flatMap (streamReads f)

/-- What a write stream reads: its mask (R169). -/
def dstReads (f : FaceId) (d : Dst) : List (Nat × Nat) := maskReads f (d.mask.map (·.1))

def keptReads (f : FaceId) (k : Option Kept) : List (Nat × Nat) := k.toList.flatMap fun k => dstReads f k.y

def cntReads (f : FaceId) (c : Option SpOff) : List (Nat × Nat) := c.toList.map fun a => (spAddr f a.toNat, 4)

/-- Operands, write stream, kept copy and count word of an instruction. -/
def plainReads (f : FaceId) (srcs : List Src) (y : Dst) (cnt : Option SpOff) (kept : Option Kept) : List (Nat × Nat) :=
  srcs.flatMap (srcReads f) ++ dstReads f y ++ keptReads f kept ++ cntReads f cnt

/-- Rows of an operand, each with a record of its own. -/
def recRows (a : Src) : Nat := ceilDiv (srcCount a) (rowShape a 1).1

/-- Records of `bytes` each, one for each row of an operand. -/
def recReads (f : FaceId) (recs : SpOff) (bytes : Nat) (a : Src) : List (Nat × Nat) := [(spAddr f recs.toNat, bytes * recRows a)]

/-- A region at a scratchpad address, 0 for none. -/
def optReads (f : FaceId) (a : SpOff) (n : Nat) : List (Nat × Nat) := if a = 0 then [] else [(spAddr f a.toNat, n)]

def preloadReads (f : FaceId) : Preload → List (Nat × Nat)
  | .zero => []
  | .tensor st | .raw st _ => streamReads f st

def fusedReads (f : FaceId) : Fused → List (Nat × Nat)
  | .none => []
  | .add t | .mul t => streamReads f t

/-- Addresses of a contribution's elements in the source Face's scratchpad: its stream's, or for quire fragments the consecutive
8-byte values from the stream's base (log entry 94). -/
def contribAddrs (f : FaceId) (o : AtomicOp) : List Nat :=
  match o.group.fmt with
  | .fragment => (List.range o.group.count).map fun i => spAddr f o.src.desc.base.toNat + 8 * i
  | _ => (streamAddrs f o.src.desc).map (· / 8)

/-- The ranges of device memory that an instruction of Face f reads. -/
def readRanges (f : FaceId) : Instr → List (Nat × Nat)
  | .benchForwardRead _ o | .benchTransposedRead _ o => streamReads f o.act
  | .weightLoad _ o => (spAddr f o.image.toNat, imageBytes o.pair 128) :: spallRanges f o.spall
  | .drain _ o => preloadReads f o.next ++ fusedReads f o.fused ++ maskReads f (o.mask.map (·.1))
  | .add _ o | .sub _ o | .mul _ o | .div _ o | .max _ o | .min _ o | .cmpEq _ o | .cmpLt _ o | .cmpLe _ o =>
    plainReads f [o.a, o.b] o.y o.cnt o.kept
  | .muladd _ o => plainReads f [o.a, o.b, o.c] o.y o.cnt o.kept
  | .abs _ o | .neg _ o | .sqrt _ o => plainReads f [o.a] o.y o.cnt o.kept
  | .select _ o => streamReads f o.mask ++ plainReads f [o.a, o.b] o.y o.cnt none
  | .convert _ o => plainReads f [o.a] o.y o.cnt o.kept
  | .quant _ o => plainReads f [o.a] o.y o.cnt none
  | .intFinish _ o =>
    plainReads f [o.acc, o.colsum] o.y o.cnt o.kept ++ streamReads f o.zw ++ streamReads f o.w ++ spallRanges f o.spall
      ++ [(spAddr f o.recs.toNat, 16 * o.m), (spAddr f o.tsw.toNat, 16)]
  | .sum _ o => plainReads f [o.a] o.y o.cnt none
  | .maxr _ o | .minr _ o => plainReads f [o.a] o.y o.cnt none ++ dstReads f o.idx
  | .compress _ o => streamReads f o.mask ++ plainReads f [o.a] o.y o.cnt none
  | .expand _ o => streamReads f o.mask ++ plainReads f [o.a] o.y o.cnt none
  | .qadd _ o => plainReads f [.mem o.a, .mem o.b] o.y o.cnt none
  | .tswTest _ o => [(spAddr f o.tsw.toNat, 16)]
  | .fnExp2 _ o | .fnLog2 _ o | .fnTab _ _ o => plainReads f [o.a] o.y o.cnt o.kept
  | .fnGate _ o => plainReads f [o.a, o.g] o.y o.cnt o.kept
  | .smax1 _ o => srcReads f o.a ++ maskReads f o.mask ++ cntReads f o.cnt
  | .smax2 _ o => plainReads f [o.a] o.y o.cnt o.kept ++ maskReads f o.mask ++ recReads f o.recs 8 o.a
  | .normStats _ o => srcReads f o.a ++ cntReads f o.cnt
  | .normApply _ o => plainReads f (o.a :: (o.gamma.toList ++ o.beta.toList)) o.y o.cnt o.kept ++ recReads f o.recs 16 o.a
  | .normGrad1 _ o =>
    [o.x, o.dy, o.gamma].flatMap (srcReads f) ++ cntReads f o.cnt ++ o.fwd.toList.flatMap fun a => recReads f a 16 o.x
  | .normGrad2 _ o =>
    plainReads f [o.x, o.dy, o.gamma] o.y o.cnt none ++ (o.dyx.toList.flatMap (dstReads f)) ++ recReads f o.recs 16 o.x
  | .smaxGrad1 _ o => [o.yv, o.dy].flatMap (srcReads f) ++ maskReads f o.mask ++ cntReads f o.cnt
  | .smaxGrad2 _ o => plainReads f [o.yv, o.dy] o.y o.cnt none ++ maskReads f o.mask ++ recReads f o.d 4 o.yv
  | .gsScan _ o =>
    [o.a, o.x, o.b, o.c].flatMap (streamReads f) ++ dstReads f o.y
      ++ optReads f o.rmap 32 ++ optReads f o.init (4 * (o.ch * o.g))
      ++ o.cin.toList.map fun a => (spAddr f a.toNat, 4 * (o.ch * o.g))
  | .moverTransfer _ o => [(o.src.toNat, o.bytes)]
  | .fabricSend _ o => [(o.src.toNat, o.bytes)]
  | .atomicAdd _ o => (contribAddrs f o).map fun a => (a, addSize o.group.fmt)
  | _ => []

/-! ### What an instruction waits for (R217, R253) -/

/-- The ticks of a run that send a message or open a group (log entry 149). -/
def inPhase (every phase launch t : Nat) : Bool := decide (launch ≤ t) && (t - launch) % Nat.max 1 every == phase

/-- Every byte of a range has come in the landed packets of a message. -/
def State.landed (s : State) (k : MsgKey) (a n : Nat) : Bool :=
  decide (n ≤ ((s.mem.landing.filter fun l => l.shown && l.key == k).map fun l => shared a n l.addr.toNat l.bytes.length).foldl (· + ·) 0)

/-- The message that a program of tick `x` reads. -/
def State.expectKey (s : State) (e : Expect) (x : BitVec 64) : MsgKey := ⟨s.memberAt e.rank, e.tag, x⟩

/-- A message that a program of tick `x` reads has not come. -/
def State.lateMessage (s : State) (e : Expect) (x : BitVec 64) : Bool :=
  decide (e.vis ≤ x.toNat) && inPhase e.every e.phase s.tk.launchAt.toNat (x.toNat - e.vis)
    && !s.landed (s.expectKey e x) e.addr.toNat e.bytes

/-- The last tick, at most `t`, that opens a group. -/
def lastOpen (g : GroupUse) (launch t : Nat) : Option Nat :=
  ((List.range (Nat.max 1 g.every)).map fun i => t - i).find? fun u => decide (u ≤ t) && inPhase g.every g.phase launch u

/-- A group that a program of tick `x` may read has not completed, whether or not a contribution has come. -/
def State.lateGroup (s : State) (g : GroupUse) (x : Nat) : Bool :=
  decide (g.desc.vis ≤ x) && (match lastOpen g s.tk.launchAt.toNat (x - g.desc.vis) with
    | some t => !s.mem.groups.any fun q => q.desc.target == g.desc.target && q.opened.toNat == t && q.done
    | none => false)

/-- The groups at the adders whose contributions are not all in, when a read in tick `x` needs them: T + V has come. -/
def State.openGroup (s : State) (x a n : Nat) : Option AddGroup :=
  s.mem.groups.find? fun g =>
    !g.done && decide (g.opened.toNat + g.desc.vis ≤ x) && meets a n g.desc.target.toNat (groupBytes g.desc)

/-- A group that is open before its due boundary, over a range: no program reads or writes there (R253). -/
def State.earlyGroup (s : State) (f : FaceId) (a n : Nat) : Bool :=
  let x := (s.progTick f).toNat
  (s.mem.groups.any fun g =>
    !g.done && decide (x < g.opened.toNat + g.desc.vis) && meets a n g.desc.target.toNat (groupBytes g.desc))
  || (match (s.face f).prog with
    | some p => p.groups.any fun g =>
        meets a n g.desc.target.toNat (groupBytes g.desc) && (match lastOpen g s.tk.launchAt.toNat x with
          | some t => decide (x < t + g.desc.vis)
          | none => false)
    | none => false)

/-- What ranges read by a program of Face f must still wait for. -/
def State.missing (s : State) (f : FaceId) (rs : List (Nat × Nat)) : Option StallCause :=
  let x := s.progTick f
  let p := (s.face f).prog
  let msg := ((p.map (·.expects)).getD []).find? fun e => meetsAny rs e.addr.toNat e.bytes && s.lateMessage e x
  match msg with
  | some e => some (.message (s.expectKey e x))
  | none =>
    let grp := ((p.map (·.groups)).getD []).find? fun g => meetsAny rs g.desc.target.toNat (groupBytes g.desc) && s.lateGroup g x.toNat
    match grp with
    | some g => some (.group g.desc.target)
    | none =>
      if s.mem.groups.isEmpty then none
      else rs.findSome? fun r => (s.openGroup x.toNat r.1 r.2).map fun g => .group g.desc.target

/-! ### The landing view of an earlier tick (R217, R222) -/

/-- Bytes at single addresses. -/
def Mem.putBytes (m : Mem) (l : List (Nat × Byte)) : Mem := { m with cells := l.foldl (fun c p => Cells.write c p.1 [p.2]) m.cells }

/-- The granules that single addresses lie in. -/
def gransOf (l : List Nat) : List Nat := l.foldl (fun g a => nins (gran a) g) []

/-- Poison of some granules as given, the others as they stand. -/
def Mem.setPoison (m : Mem) (gs : List Nat) (on : Nat → Bool) : Mem :=
  { m with poison := gs.foldl (fun l g => if on g then nins g l else l.filter fun x => x ≠ g) m.poison }

/-- The positions of a shown message that still hold its bytes. -/
def Landed.stands (l : Landed) (m : Mem) : List Nat :=
  (List.range l.bytes.length).filter fun i => Cells.readByte m.cells (l.addr.toNat + i) == l.bytes.getD i 0

/-- A shown message is lifted off memory where it still stands. -/
def Landed.lift (l : Landed) (m : Mem) : Mem :=
  let is := l.stands m
  (m.putBytes (is.map fun i => (l.addr.toNat + i, l.under.getD i 0))).setPoison (gransOf (is.map (l.addr.toNat + ·))) fun g => l.underMarks.contains g

/-- It is laid down again at the positions `is`, with the poison that `m0` has there; what the effect left under it stays as the view of
the earlier tick. -/
def Landed.lay (l : Landed) (m0 : Mem) (is : List Nat) (m : Mem) : Mem :=
  let gs := gransOf (is.map (l.addr.toNat + ·))
  let new : Landed := { l with
    under := (List.range l.bytes.length).map fun i => if is.contains i then Cells.readByte m.cells (l.addr.toNat + i) else l.under.getD i 0
    underMarks := (gs.filter fun g => m.poison.contains g) ++ l.underMarks.filter fun g => !gs.contains g }
  let m1 := (m.putBytes (is.map fun i => (l.addr.toNat + i, l.bytes.getD i 0))).setPoison gs fun g =>
    m0.poison.contains g || (m.poison.contains g && !l.underMarks.contains g)
  { m1 with landing := m1.landing.map fun x => if x = l then new else x }

/-- The shown messages that a program of tick `x` does not see yet, the last shown first. -/
def Mem.ahead (m : Mem) (x : BitVec 64) : List Landed := (m.landing.filter fun l => l.shown && decide (x.toNat < l.key.vis.toNat)).reverse

/-- Memory as a program of tick `x` sees it, with the messages lifted and where each stood, the last lifted first (R217; log entry 162). -/
def Mem.viewAt (m : Mem) (x : BitVec 64) : Mem × List (Landed × List Nat × Mem) :=
  (m.ahead x).foldl (fun p l => (l.lift p.1, (l, l.stands p.1, p.1) :: p.2)) (m, [])

/-- The state as the program of Face f sees it. -/
def State.view (s : State) (f : FaceId) : State :=
  if (s.face f).slip = 0 then s else { s with mem := (s.mem.viewAt (s.progTick f)).1 }

/-- The effect of an instruction of Face f on its view of memory; the messages of later ticks lie over it again afterwards. -/
def State.atView (s : State) (f : FaceId) (effect : State → State) : State :=
  if (s.face f).slip = 0 then effect s
  else
    let lifted := (s.mem.viewAt (s.progTick f)).2
    let t := effect (s.view f)
    { t with mem := lifted.foldl (fun m x => x.1.lay x.2.2 x.2.1 m) t.mem }

/-! ### Issue -/

/-- An instruction that issues: the Face stalls with it held where it reads what has not come, and otherwise it has its effect. -/
def State.run (s : State) (f : FaceId) (i : Instr) (effect : State → State) : State :=
  match s.missing f (readRanges f i) with
  | some c => s.updFace f fun x => { x with stall := some c, held := [i] }
  | none => s.atView f effect

/-- An instruction of Face f: refused where it breaks a rule of PROG_VERIFY, since PROG_LOAD loads only an image that passes every check
of PROG_VERIFY (R327) and no loaded program holds such an instruction; without effect where the Face issues nothing; and otherwise
run. -/
def issue (s : State) (f : FaceId) (i : Instr) (broken : Option Nat) (effect : State → State) : Result :=
  match broken with
  | some r => .refused (.programRefused r)
  | none => if s.issues f then .next (s.run f i effect) else .next s

end Sys2Proof.Machine
end

