-- ==== Sys2Proof/Machine/Bench.lean ====
section
/-! DEFINITION. The Bench: stationary tiles, forward and transposed reads, the drain with its Tile Status Word, the
finished-tile queue and the current keeper (R50 to R96, R169). -/

namespace Sys2Proof.Machine

/-- The spall table of a Face's loaded program (R117). -/
def State.tbl (s : State) (f : FaceId) : Tbl := some (match (s.face f).prog with | some p => p.spalls | none => [])

/-- R89: a load has ended before the swap. -/
def swapRule (s : State) (f : FaceId) : Option Nat := checks [((s.face f).units.loaded, 89)]

/-! ### Quires -/

/-- Quire width w (R50). -/
def quireW : Pair → Nat
  | .posit8 => 128
  | .posit32 => 512
  | _ => 256

/-- Grid exponent g (R50). -/
def gridExp (p : Pair) (base : Int) : Int :=
  match p with
  | .posit8 => -48
  | .posit16 => -112
  | .posit32 => -240
  | .bp8 | .bp16 => base - 112
  | .int8 | .int4 => 0

/-- IFMT code (R50). -/
def ifmtCode : Pair → Nat
  | .posit8 => 1 | .posit16 => 2 | .posit32 => 3 | .bp8 => 4 | .bp16 => 5 | .int8 => 6 | .int4 => 7

def quireMax (w : Nat) : Int := 2 ^ (w - 1) - 1

def intAbs (x : Int) : Int := if x < 0 then -x else x

/-- The limit of product terms of one accumulation (R55). -/
def maxTerms : Nat := 2 ^ 31 - 1

/-- add_contribution of R53. -/
def addContribution (w : Nat) (g : Int) (c : Rat) (q : Quire) : Quire :=
  let x := c * pow2 (-g)
  let xi := if x.den = 1 then x.num else rne x
  { q with
    q := q.q + xi
    windowed := q.windowed || decide (x.den ≠ 1)
    overflow := q.overflow || decide (quireMax w < intAbs xi) }

/-- The quire of a cell pair or cell (R52, R84): its key 128 i + n in a quire set, n the physical column that `col` gives. `w` is the
Bench width. -/
def quireKey (p : Pair) (trans : Bool) (w : Nat) (col : Nat → Nat) (m n : Nat) : Nat :=
  if trans then
    match p with
    | .posit16 | .bp16 => 128 * n + col m
    | .posit8 | .bp8 | .int8 => 128 * (n / 2) + col (2 * m + n % 2)
    | .int4 => 128 * (n / 4) + col (4 * m + n % 4)
    | .posit32 => 128 * (2 * (64 * (m / w) + n)) + col (m % w)
  else match p with
    | .posit32 => 128 * (2 * m) + col n
    | _ => 128 * m + col n

/-- One product's operands: activation, weight, and the reduction index. -/
structure Term where
  a  : Val
  am : Bool
  b  : Val
  bm : Bool
  k  : Nat
  deriving DecidableEq, Repr

def Term.nar (t : Term) : Bool := !t.a.isReal || t.am || !t.b.isReal || t.bm
def Term.invalid (t : Term) : Bool := t.nar && (t.a == .fin 0 && !t.am || t.b == .fin 0 && !t.bm)

def optMin (a : Option Nat) (k : Nat) : Option Nat := match a with | some j => some (Nat.min j k) | none => some k

/-- R53 on one contribution unit. -/
def addUnit (w : Nat) (g : Int) (q : Quire) (u : List Term) : Quire :=
  let q := { q with poison := q.poison || (u.any fun t => t.am || t.bm), terms := q.terms + u.length }
  if u.any Term.nar then
    u.foldl (fun q t => if t.nar then
      { q with nar := true, invalid := q.invalid || t.invalid, firstK := optMin q.firstK t.k } else q) q
  else addContribution w g (u.foldl (fun s t => s + t.a.toRat * t.b.toRat) 0) q

/-- The contribution units of one row against one column: single products, or blocks of 32 for a BP pair (R56, R85). -/
def unitsOf (p : Pair) (ts : List Term) : List (List Term) :=
  if pairBp p then chunksOf 32 (ts.length + 1) ts ++ (let r := ts.drop (ts.length / 32 * 32); if r.isEmpty then [] else [r])
  else ts.map fun t => [t]

/-! ### Stationary tiles -/

def cellAt (st : Stationary) (i n : Nat) : Nat := (sget 0 st.cells (128 * i + n)).toNat

/-- The stored pattern of weight element (k, n) (R81). -/
def weightPat (st : Stationary) (k n : Nat) : Nat :=
  match st.pair with
  | .posit16 | .bp16 => cellAt st k n
  | .posit8 | .bp8 | .int8 => cellAt st (k / 2) n / 2 ^ (8 * (k % 2)) % 256
  | .int4 => cellAt st (k / 4) n / 2 ^ (4 * (k % 4)) % 16
  | .posit32 => cellAt st (4 * k) n + 2 ^ 16 * cellAt st (4 * k + 1) n

/-- Weight element (k, n) as a value, with the mark of a poisoned word, or of a poisoned spall slot (R37, R71, R74). n is the physical
column. -/
def weightAt (st : Stationary) (k n : Nat) : Val × Bool :=
  let kt := kTile st.pair
  let marked := st.marks.contains (n * kt + k)
  if pairBp st.pair then
    match st.hdrs.find? fun h => h.1 == n * (kt / 32) + k / 32 with
    | none => (.nar, true)
    | some (_, h) =>
      let h := BpHeader.ofNat h.toNat
      if h.malformed then (.nar, false)
      else if h.isZero then (.fin 0, false)
      else if h.escaped (k % 32) then
        (match st.side.find? fun x => x.1 == n * kt + k with | some (_, v) => v | none => (.nar, false))
      else if marked then (.nar, true)
      else
        match positDecode (pairFmt st.pair).positN (weightPat st k n) with
        | .fin q => (.fin (q * pow2 h.scale), false)
        | _ => (.nar, false)
  else if marked then (.nar, true)
  else ((pairFmt st.pair).decode (weightPat st k n), false)

/-- Byte offset of a cell's 16 bits in the image (R81, R87); posit32 uses two cells of four. -/
def cellOffset (p : Pair) (i n : Nat) : Option Nat :=
  match p with
  | .bp16 => some (n * 544 + i / 32 * 68 + 4 + 2 * (i % 32))
  | .bp8 => some (n * 576 + 2 * i / 32 * 36 + 4 + 2 * i % 32)
  | .posit32 => if i % 4 < 2 then some (n * 256 + i / 4 * 4 + i % 4 * 2) else none
  | _ => some (n * 512 + 2 * i)

/-- Byte offset and length of a weight element's own bytes in the image. -/
def elemOffset (p : Pair) (k n : Nat) : Nat × Nat :=
  match p with
  | .bp16 => (n * 544 + k / 32 * 68 + 4 + 2 * (k % 32), 2)
  | .bp8 => (n * 576 + k / 32 * 36 + 4 + k % 32, 1)
  | .posit32 => (n * 256 + 4 * k, 4)
  | .posit16 => (n * 512 + 2 * k, 2)
  | .int4 => (n * 512 + k / 2, 1)
  | _ => (n * 512 + k, 1)

def blockBytes : Pair → Nat
  | .bp8 => 36
  | _ => 68

/-- What the background loader reads (R87, R88): the tile in the live columns, and the counts of malformed headers and missing
escapes. -/
def loadTile (m : Mem) (f : FaceId) (w : Nat) (col : Nat → Nat) (o : WeightLoadOp) : Stationary × Totals :=
  let a := spAddr f o.image.toNat
  let img := m.bytes a (imageBytes o.pair w)
  let kt := kTile o.pair
  let cells := (List.range 256).flatMap fun i => (List.range w).filterMap fun n =>
    match cellOffset o.pair i n with
    | some off => let v := leAt img off 2; if v = 0 then none else some (128 * i + col n, BitVec.ofNat 16 v)
    | none => none
  let bad := !(m.markedIn a img.length).isEmpty
  let marks := if bad then
      (List.range w).flatMap fun n => (List.range kt).filterMap fun k =>
        let (off, len) := elemOffset o.pair k n
        if m.marked (a + off) len then some (col n * kt + k) else none
    else []
  if pairBp o.pair then
    let bb := blockBytes o.pair
    let nb := kt / 32
    let hs := (List.range w).flatMap fun n => (List.range nb).map fun j => (n, j, n * (nb * bb) + j * bb)
    let live := hs.filter fun (_, _, off) => !(bad && m.marked (a + off) 4)
    let esc := live.flatMap fun (n, j, off) =>
      let h := BpHeader.ofNat (leAt img off 4)
      if h.malformed || h.isZero then []
      else ((List.range 32).filter h.escaped).map fun i =>
        (col n * kt + 32 * j + i, spallLook m f o.spall
          (match o.spall with | some l => unitOf l (o.image.toNat + off) | none => 0) i)
    let badH := (live.filter fun (_, _, off) => (BpHeader.ofNat (leAt img off 4)).malformed).length
    ({ pair := o.pair, width := w, cells := cells
       hdrs := live.map fun (n, j, off) => (col n * nb + j, BitVec.ofNat 32 (leAt img off 4))
       side := esc.map fun x => (x.1, x.2.1.v, x.2.1.mark), marks := marks },
     (esc.map fun x => x.2.2).foldl Totals.plus { Totals.zero with bpBad := badH })
  else ({ pair := o.pair, width := w, cells := cells, hdrs := [], side := [], marks := marks }, Totals.zero)

/-- The image goes into the shadow registers (R88). -/
def weightLoadEffect (f : FaceId) (o : WeightLoadOp) (s : State) : State :=
  let w := (s.face f).width
  let (st, t) := loadTile s.mem f w (s.face f).column o
  ((s.noteReads (.face f.val) [(spAddr f o.image.toNat, imageBytes o.pair w)]).count f t).updUnits f fun u =>
    { u with shadow := st, loaded := true }

/-- WEIGHT_LOAD (R88). -/
def execWeightLoad (f : FaceId) (o : WeightLoadOp) (s : State) : Result :=
  issue s f (.weightLoad f o) (weightLoadRule (s.tbl f) (s.face f).width o) (weightLoadEffect f o)

/-- WEIGHT_SWAP (R89): the active and shadow registers change places; no quire moves (R63). A swap that no load has preceded since
LAUNCH is refused. -/
def execWeightSwap (f : FaceId) (s : State) : Result :=
  issue s f (.weightSwap f) (swapRule s f) fun s => s.updUnits f fun u => { u with active := u.shadow, shadow := u.active }

/-! ### Reads -/

def FaceUnits.set (u : FaceUnits) (b : QSet) : QuireSet := if b then u.setB else u.setA
def FaceUnits.withSet (u : FaceUnits) (b : QSet) (q : QuireSet) : FaceUnits :=
  if b then { u with setB := q } else { u with setA := q }

/-- The terms of one output: forward over k for column c, transposed over logical column n for K position c. -/
def rowTerms (st : Stationary) (trans : Bool) (col : Nat → Nat) (row : List Rd) (k0 c : Nat) : List Term :=
  ((List.range row.length).zip row).map fun (i, r) =>
    let (b, bm) := if trans then weightAt st c (col i) else weightAt st i (col c)
    ⟨r.v.toNar, r.mark, b, bm, k0 + i⟩

/-- Cells of the quires that one entered row feeds (R83, R84). -/
def rowKeys (trans : Bool) (w : Nat) (col : Nat → Nat) (o : BenchRead) : List Nat :=
  (List.range (if trans then kTile o.pair else w)).map fun c => quireKey o.pair trans w col o.row c

/-- Every output of one entered row receives its exact dot product (R83, R84, R53). -/
def benchRow (st : Stationary) (trans : Bool) (w : Nat) (col : Nat → Nat) (o : BenchRead) (row : List Rd) (qs : QuireSet) : QuireSet :=
  let qw := quireW o.pair
  let g := gridExp o.pair o.base
  let keys := rowKeys trans w col o
  { qs with
    cells := ((List.range keys.length).zip keys).foldl (fun cells (c, key) =>
      let q := (unitsOf o.pair (rowTerms st trans col row o.k0 c)).foldl (addUnit qw g) (sget Quire.zero cells key)
      sset Quire.zero cells key q) qs.cells
    use := some (o.pair, trans) }

/-- What a read needs of the Face: the stationary tile's pair (R50), an accumulation of this pair and direction (R86), and room for its
product terms (R55). -/
def readStateRule (s : State) (f : FaceId) (trans : Bool) (o : BenchRead) : Option Nat :=
  let u := (s.face f).units
  let qs := u.set o.set
  let n := streamCount o.act.desc * (StreamFmt o.act.desc).valuesPer
  checks [
    (u.active.pair == o.pair, 50), ((match qs.use with | some x => x == (o.pair, trans) | none => true), 86),
    ((rowKeys trans (s.face f).width (s.face f).column o).all fun k => decide ((sget Quire.zero qs.cells k).terms + n ≤ maxTerms), 55)]

/-- One row enters the Bench and its quire set (R83, R84). -/
def benchReadEffect (trans : Bool) (f : FaceId) (o : BenchRead) (s : State) : State :=
  let x := s.face f
  let (row, s) := s.readStream f o.act none
  s.updUnits f fun u => u.withSet o.set (benchRow x.units.active trans x.width x.column o row (u.set o.set))

def benchRead (i : FaceId → BenchRead → Instr) (trans : Bool) (f : FaceId) (o : BenchRead) (s : State) : Result :=
  issue s f (i f o) (firstOf [benchReadRule (s.tbl f) trans (s.face f).width o, readStateRule s f trans o]) (benchReadEffect trans f o)

/-- BENCH_FORWARD_READ (R83). -/
def execBenchForwardRead (f : FaceId) (o : BenchRead) (s : State) : Result := benchRead .benchForwardRead false f o s

/-- BENCH_TRANSPOSED_READ (R84). -/
def execBenchTransposedRead (f : FaceId) (o : BenchRead) (s : State) : Result := benchRead .benchTransposedRead true f o s

/-! ### The drain -/

/-- A preload or fused element within the Bench: the INT32 pattern 0x8000_0000 reads as NaR (R69). -/
def benchAddend (fmt : Fmt) (r : Rd) : Rd := if fmt == .int32 && r.pat == 0x80000000 then { r with v := .nar } else r

/-- One drained output before it is rounded. -/
structure DrainVal where
  q      : Quire
  parity : Bool
  t      : Option Rd
  live   : Bool
  mpois  : Bool
  v      : Val
  ovf    : Bool
  deriving DecidableEq, Repr

/-- The result of R53 for one output, up to the rounding. -/
def drainVal (w : Nat) (g : Int) (fused : Fused) (q : Quire) (parity : Bool) (t : Option Rd) (live mpois : Bool) : DrainVal :=
  let ovf := q.overflow || (!q.nar && decide (quireMax w < intAbs q.q))
  let tn := match t with | some r => !r.v.isReal || r.mark | none => false
  let base : Rat := (q.q : Rat) * pow2 g
  let v : Val :=
    if q.nar || ovf || parity || tn || mpois then .nar
    else match fused, t with
      | .add _, some r => .fin (base + r.v.toRat)
      | .mul _, some r => .fin (base * r.v.toRat)
      | _, _ => .fin base
  ⟨q, parity, t, live, mpois, v, ovf⟩

/-- NAR_SRC and FIRST_NAR_K of a NaR output (R74, R76); a NaR that only a poisoned mask bit made has no source in the manual's
list, so that field is a free value (log entry 33). -/
def narSource (d : DrainVal) (free : Nat) : Nat × Nat :=
  if d.q.preNar then (1, 0xFFFF)
  else match d.q.firstK with
    | some k => (0, Nat.min k 0xFFFD)
    | none =>
      if d.ovf || d.parity then (3, 0xFFFE)
      else match d.t with
        | some r => if !r.v.isReal || r.mark then (2, 0xFFFE) else (freeBits free 2, 0xFFFE)
        | none => (freeBits free 2, 0xFFFE)

/-- The TSW of a drained tile (R73 to R76): `isNar` and `sat` tell which outputs were written as NaR and how many saturated. -/
def drainTsw (o : DrainOp) (vals : List DrainVal) (isNar : List Bool) (sat free : Nat) : TswInfo :=
  let idx := (List.range vals.length).zip (vals.zip isNar)
  let live := idx.filter fun x => x.2.1.live
  let nars := live.filter fun x => x.2.2
  let (src, k, r, c) := match nars.head? with
    | some (i, d, _) => let sk := narSource d free; (sk.1, sk.2, i / o.cols, i % o.cols)
    | none => (0, 0, 0, 0)
  { tag := o.tag, ofmt := o.ofmt.toNat, ifmt := ifmtCode o.pair, qset := o.set
    qovf := live.any fun x => x.2.1.ovf
    invalid := live.any fun x => x.2.1.q.invalid
    poison := live.any fun x => x.2.1.q.poison || x.2.1.parity || x.2.1.mpois || (match x.2.1.t with | some r => r.mark | none => false)
    narCount := nars.length, narSrc := src, narK := k, narRow := r, narCol := c
    sat := sat, window := (live.filter fun x => x.2.1.q.windowed).length }

/-- The raw quire pattern (R70). -/
def rawPattern (w : Nat) (d : DrainVal) : Nat := if d.v.isReal then ofSigned w d.q.q else 2 ^ (w - 1)

/-- INT32 delivery (R69). -/
def int32Deliver (v : Val) : Nat × Bool :=
  match v with
  | .fin q =>
    let x := q.floor
    if x < -(2 ^ 31 - 1) then (ofSigned 32 (-(2 ^ 31 - 1)), true)
    else if 2 ^ 31 - 1 < x then (ofSigned 32 (2 ^ 31 - 1), true) else (ofSigned 32 x, false)
  | _ => (0x80000000, false)

/-- One rounded scalar output: pattern and saturation. -/
def drainRound (fmt : Fmt) (d : DrainVal) : Nat × Bool :=
  if !d.live then (0, false)
  else if fmt = .int32 then int32Deliver d.v
  else (fmt.encode d.v, match d.v with | .fin q => fmt.saturates q | _ => false)

/-- The spall unit of a drained tile's block `i` (R67, R118). -/
def drainUnit (o : DrainOp) (i : Nat) : Nat := o.unit0 + i / (o.cols / 32) * o.unitStep + i % (o.cols / 32)

/-- A BP drain (R67): blocks of 32 columns, encoded in row-major order; masked blocks enter as ZERO_BLOCK and take no slot. Under
KEEP the slots of a masked unit stay as they are (log entry 34). -/
def drainBlocks (o : DrainOp) (n : Nat) (keep : Bool) (f : FaceId) (s : State) (vals : List DrainVal) :
    State × List Nat × List Bool × Nat :=
  let blocks := chunksOf 32 vals.length vals
  ((List.range blocks.length).zip blocks).foldl (fun (acc : State × List Nat × List Bool × Nat) (i, b) =>
    let (s, ps, ns, sat) := acc
    let u := drainUnit o i
    if b.any fun d => !d.live then
      let s := if keep then s else s.purgeUnit f o.spall u
      (s, ps ++ [0x80000000], ns ++ List.replicate 32 false, sat)
    else
      let (s, e) := s.encodeUnit f o.spall u n o.enc (b.map fun d => SrcVal.of d.v)
      (s, ps ++ [leNat (bpBytes n e.header e.elems)], ns ++ b.map (fun d => !d.v.isReal), sat + e.sats)) (s, [], [], 0)

/-- Values of a preload or fused tensor, one for each output. -/
def State.addends (s : State) (f : FaceId) (st : Stream) : List Rd × State :=
  let (vs, s) := s.readStream f st none
  (vs.map (benchAddend (StreamFmt st.desc)), s)

/-- The next preload of one quire (R59). -/
def preloadQuire (o : DrainOp) (r : Rd) : Quire :=
  let q := { Quire.zero with poison := r.mark }
  match o.next with
  | .zero => Quire.zero
  | .tensor _ =>
    (match r.v with
      | .fin c => if r.mark then { q with nar := true, preNar := true } else addContribution (quireW o.nPair) (gridExp o.nPair o.nBase) c q
      | _ => { q with nar := true, preNar := true })
  | .raw _ _ =>
    let w := quireW o.nPair
    if r.mark || r.pat == 2 ^ (w - 1) then { q with nar := true, preNar := true } else { q with q := toSigned w r.pat }

/-- The cells of an output tile, row-major. -/
def tileKeys (p : Pair) (trans : Bool) (w : Nat) (col : Nat → Nat) (rows cols : Nat) : List Nat :=
  (List.range rows).flatMap fun m => (List.range cols).map fun n => quireKey p trans w col m n

/-- A quire's cells: the pair of R52 for posit32. -/
def parityAt (p : Pair) (l : List Nat) (key : Nat) : Bool :=
  l.contains key || (p == .posit32 && l.contains (key + 128))

/-- The quire set after its drain: the drained cells leave, and the next preload enters (R61). A tensor or raw preload begins an
accumulation of its pair and direction; zeros leave them to the first read (R86). -/
def refill (o : DrainOp) (w : Nat) (col : Nat → Nat) (pre : List Rd) (qs : QuireSet) : QuireSet :=
  let gone := tileKeys o.pair o.trans w col o.rows o.cols
  let keys := tileKeys o.nPair o.nTrans w col o.nRows o.nCols
  let cells := gone.foldl (fun c k => sset Quire.zero c k Quire.zero) qs.cells
  let cells := match o.next with
    | .zero => keys.foldl (fun c k => sset Quire.zero c k Quire.zero) cells
    | _ => (keys.zip pre).foldl (fun c x => sset Quire.zero c x.1 (preloadQuire o x.2)) cells
  { cells := cells
    parity := qs.parity.filter fun k => !(gone.contains k || (o.pair == .posit32 && decide (128 ≤ k) && gone.contains (k - 128)))
    use := match o.next with | .zero => none | _ => some (o.nPair, o.nTrans) }

/-- Column groups of quires with bad parity: errors found in service (R92, R94, log entry 130). -/
def parityGroups (keys : List Nat) : BitVec 16 := keys.foldl (fun g k => g ||| BitVec.ofNat 16 (2 ^ (k % 128 / 8))) 0

/-- The effect of a drain (R53, R65 to R76). DETAIL bytes 0 and 1 of QUIRE_PARITY hold the row and the column of the output tile, the
column modulo 256 where a tile is wider (log entry 139, DESIGN CHOICE: R334 says only row and column). -/
def drainEffect (f : FaceId) (o : DrainOp) (w : Nat) (s : State) : State :=
  let qw := quireW o.pair
  let g := gridExp o.pair o.base
  let qs := (s.face f).units.set o.set
  let col := (s.face f).column
  let keys := tileKeys o.pair o.trans w col o.rows o.cols
  let isBp := match ofmtFmt o.ofmt o.pair with | some x => x.isBp | none => false
  -- operands streamed from the scratchpad
  let (ts, s) := match o.fused with
    | .none => (List.replicate keys.length (none : Option Rd), s)
    | .add st | .mul st => let (l, s) := s.addends f st; (l.map some, s)
  let (mk0, s) := match o.mask with
    | some (st, _) => s.readMask f st none
    | none => ([], s)
  let masks : List (Bool × Bool) :=
    if o.mask.isNone then List.replicate keys.length (true, false)
    else if isBp then mk0.flatMap fun b => List.replicate 32 b else mk0
  let keep := match o.mask with | some (_, .keep) => true | _ => false
  let (pre, s) := match o.next with
    | .zero => (([] : List Rd), s)
    | .tensor st => s.addends f st
    | .raw st _ => s.readStream f st none
  let vals := (keys.zip (ts.zip masks)).map fun (k, t, mb) =>
    drainVal qw g o.fused (sget Quire.zero qs.cells k) (parityAt o.pair qs.parity k) t mb.1 mb.2
  -- parity errors (R64)
  let bad := ((List.range vals.length).zip vals).filter fun x => x.2.parity
  let s := bad.foldl (fun s x => s.raise 0x0201 (.face f.val) 0
    [BitVec.ofNat 8 (x.1 / o.cols), BitVec.ofNat 8 (x.1 % o.cols), BitVec.ofNat 8 (b2n o.set)]) s
  let s := s.markGroups f (parityGroups (((keys.zip vals).filter fun x => x.2.parity).map (·.1)))
  let s := s.updUnits f fun u => u.withSet o.set (refill o w col pre qs)
  if o.rows = 0 then s else
  let free := s.free
  let s := { s with free := free + 8 }
  match o.dst with
  | .raw tile tsw =>
    let t := drainTsw o vals (vals.map fun d => !d.v.isReal) 0 free
    let size := (rawFmt o.pair).bits
    let ws := ((List.range vals.length).zip vals).map fun (i, d) =>
      (⟨8 * spAddr f tile.toNat + i * size, size, rawPattern qw d, false⟩ : BitWrite)
    (s.spWrite f ws).spBytes f tsw.toNat (tswBytes t.word0 t.word1)
  | .queue =>
    match ofmtFmt o.ofmt o.pair with
    | none => s
    | some fmt =>
      let (s, elems, isNar, sat) :=
        if isBp then drainBlocks o fmt.positN keep f s vals
        else
          let rs := vals.map (drainRound fmt)
          let sat := (rs.filter (·.2)).length
          (s.count f { Totals.zero with convRange := sat }, rs.map (·.1), vals.map fun d => !d.v.isReal, sat)
      let t := drainTsw o vals isNar sat free
      s.updUnits f fun u => { u with pipe := u.pipe ++
        [{ fmt := fmt, rows := o.rows, cols := o.cols, elems := elems, marks := [], tsw0 := t.word0, tsw1 := t.word1, read := 0
           spall := o.spall, unit0 := o.unit0, unitStep := o.unitStep }] }

/-- R86: a drain of quires that took contributions is of their pair and direction. -/
def drainStateRule (s : State) (f : FaceId) (o : DrainOp) : Option Nat :=
  checks [(o.rows == 0 || (match ((s.face f).units.set o.set).use with | some x => x == (o.pair, o.trans) | none => true), 86)]

/-- DRAIN (R65). -/
def execDrain (f : FaceId) (o : DrainOp) (s : State) : Result :=
  let w := (s.face f).width
  issue s f (.drain f o) (firstOf [drainRule (s.tbl f) w o, drainStateRule s f o]) (drainEffect f o w)

/-- FINISHED_TILE_QUEUED (R90, R91): the oldest drained tile enters the queue, which holds at most 4. -/
def execFinishedTileQueued (f : FaceId) (s : State) : Result :=
  issue s f (.finishedTileQueued f) (checks [(decide ((s.face f).units.queue.length < 4), 91)]) fun s =>
    s.updUnits f fun u =>
      match u.pipe with
      | [] => u
      | t :: r => { u with pipe := r, queue := u.queue ++ [t] }

/-- KEEPER_MAC (R95, R96): dummy MACs write no quire and raise no flag; with the keeper off they are skipped. -/
def execKeeperMac (f : FaceId) (_groups : Nat) (s : State) : Result := issue s f (.keeperMac f _groups) none fun s => s

end Sys2Proof.Machine
end

