-- ==== Sys2Proof/Machine/Vector.lean ====
section
/-! DEFINITION. The vector engine's element-wise instructions, conversions, reductions and moves (R104 to R116, R387). -/

namespace Sys2Proof.Machine

/-- A queue operand reads within the head entry, whose format is its descriptor's (R91, R106). -/
def queueRule (s : State) (f : FaceId) (l : List Src) : Option Nat :=
  firstOf (l.map fun x => match x with
    | .mem _ => none
    | .queue _ st => match s.headTile f with
      | none => some 91
      | some t => checks [(decide (t.read + streamCount st.desc ≤ t.elems.length), 106), (t.fmt == StreamFmt st.desc, 106)])

/-- Read the operands of an element-wise instruction: the first under its count word, the others cut at the same values (R103). -/
def State.readPaired (s : State) (f : FaceId) (first : Src) (rest : List Src) (cnt : Option SpOff) : List (List Rd) × State :=
  let (a, s) := s.readFirst f first cnt
  rest.foldl (fun (acc : List (List Rd) × State) x =>
    let (v, s) := acc.2.readSrc f x (some a.length) cnt.isSome
    (acc.1 ++ [v], s)) ([a], s)

/-- Operands read as integers (R105). -/
def intOperands (l : List Src) : Bool := l.any fun x => (srcFmt x).isInt

/-- A result of integer operands keeps their poison mark; any other marked operand has already become NaR (R105, R248). -/
def arithRV (int : Bool) (v : Val) (rs : List Rd) : RV := ⟨v, none, int && rs.any (·.mark), false, none⟩

/-- An element-wise instruction with one rounded result per element, and its kept copy. -/
def elementwise (op : List Val → Val) (first : Src) (rest : List Src) (y : Dst) (cnt : Option SpOff) (enc : BpEnc) (sr : Bool)
    (kept : Option Kept) (f : FaceId) (s : State) : State :=
  let int := intOperands (first :: rest)
  let (cols, s) := s.readPaired f first rest cnt
  let n := (cols.headD []).length
  let out := (List.range n).map fun i =>
    let rs := cols.map fun c => c.getD i (Rd.nar false)
    arithRV int (op (rs.map (·.v))) rs
  (s.putBoth f y kept enc (s.srKey f sr) out).s

def val2 (g : Rat → Rat → Rat) : List Val → Val
  | [.fin a, .fin b] => .fin (g a b)
  | _ => .nar

def val1 (g : Rat → Rat) : List Val → Val
  | [.fin a] => .fin (g a)
  | _ => .nar

def val3 (g : Rat → Rat → Rat → Rat) : List Val → Val
  | [.fin a, .fin b, .fin c] => .fin (g a b c)
  | _ => .nar

/-- x ÷ 0 is NaR (R105). -/
def divVal : List Val → Val
  | [.fin a, .fin b] => if b = 0 then .nar else .fin (a / b)
  | _ => .nar

/-- The root of a real value (R105): NaR where it is negative; else 256 places and a sticky tail, which round like the exact root, with
the radicand for the comparisons of R39. -/
def rootRV (v : Val) : RV :=
  match v with
  | .fin a => if a < 0 then RV.of .nar else { RV.of (.fin (sqrtSticky 256 a)) with root := some a }
  | _ => RV.of .nar

def ratMax (a b : Rat) : Rat := if a < b then b else a
def ratMin (a b : Rat) : Rat := if a < b then a else b

def runVec2 (i : FaceId → Vec2 → Instr) (op : List Val → Val) (rule : Option Nat) (f : FaceId) (o : Vec2) (s : State) : Result :=
  issue s f (i f o) (firstOf [rule, queueRule s f [o.a, o.b]]) (elementwise op o.a [o.b] o.y o.cnt o.enc o.sr o.kept f)

/-- ADD (R105). -/
def execAdd (f : FaceId) (o : Vec2) (s : State) : Result := runVec2 .add (val2 (· + ·)) (addRule (s.tbl f) o) f o s
/-- SUB (R105). -/
def execSub (f : FaceId) (o : Vec2) (s : State) : Result := runVec2 .sub (val2 (· - ·)) (addRule (s.tbl f) o) f o s
/-- MUL (R105). -/
def execMul (f : FaceId) (o : Vec2) (s : State) : Result := runVec2 .mul (val2 (· * ·)) (addRule (s.tbl f) o) f o s
/-- DIV (R104, R105). -/
def execDiv (f : FaceId) (o : Vec2) (s : State) : Result := runVec2 .div divVal (divRule (s.tbl f) o) f o s
/-- MULADD: a × b + c, one rounding (R104). -/
def execMuladd (f : FaceId) (o : Vec3) (s : State) : Result :=
  issue s f (.muladd f o) (firstOf [muladdRule (s.tbl f) o, queueRule s f [o.a, o.b, o.c]])
    (elementwise (val3 fun a b c => a * b + c) o.a [o.b, o.c] o.y o.cnt o.enc o.sr o.kept f)
/-- MAX (R111). -/
def execMax (f : FaceId) (o : Vec2) (s : State) : Result := runVec2 .max (val2 ratMax) (maxRule (s.tbl f) o) f o s
/-- MIN (R111). -/
def execMin (f : FaceId) (o : Vec2) (s : State) : Result := runVec2 .min (val2 ratMin) (maxRule (s.tbl f) o) f o s
/-- SQRT of each element, rounded or encoded once. -/
def sqrtEffect (f : FaceId) (o : Vec1) (s : State) : State :=
  let (a, s) := s.readFirst f o.a o.cnt
  (s.putBoth f o.y o.kept o.enc none (a.map fun r => rootRV r.v)).s

/-- SQRT (R104, R105). -/
def execSqrt (f : FaceId) (o : Vec1) (s : State) : Result :=
  issue s f (.sqrt f o) (firstOf [sqrtRule (s.tbl f) o, queueRule s f [o.a]]) (sqrtEffect f o)

/-- ABS and NEG. Where an integer's exact result leaves the write format, the manual states none: a free value (log entry 35). -/
def unarySigned (g : Rat → Rat) (f : FaceId) (o : Vec1) (s : State) : State :=
  let int := intOperands [o.a]
  let (a, s) := s.readFirst f o.a o.cnt
  let fmt := dstFmt o.y
  let out := a.map fun r =>
    let v := val1 g [r.v]
    let r := arithRV int v [r]
    match v with
    | .fin q => if int && fmt.isInt && fmt.saturates q then { r with open_ := true } else r
    | _ => r
  (s.putBoth f o.y o.kept o.enc none out).s

/-- ABS (R104). -/
def execAbs (f : FaceId) (o : Vec1) (s : State) : Result :=
  issue s f (.abs f o) (firstOf [absRule (s.tbl f) o, queueRule s f [o.a]]) (unarySigned ratAbs f o)
/-- NEG (R104). -/
def execNeg (f : FaceId) (o : Vec1) (s : State) : Result :=
  issue s f (.neg f o) (firstOf [absRule (s.tbl f) o, queueRule s f [o.a]]) (unarySigned (fun q => -q) f o)

/-! ### Compares (R112) -/

/-- NaR equals NaR and is less than every real value. -/
def valLt : Val → Val → Bool
  | .fin a, .fin b => decide (a < b)
  | .fin _, _ => false
  | _, .fin _ => true
  | _, _ => false

def valEq : Val → Val → Bool
  | .fin a, .fin b => decide (a = b)
  | .fin _, _ => false
  | _, .fin _ => false
  | _, _ => true

def valLe (a b : Val) : Bool := valLt a b || valEq a b

/-- A compare writes mask bits; an integer operand from a poisoned word marks its bit (R248). -/
def compareEffect (p : Val → Val → Bool) (f : FaceId) (o : Vec2) (s : State) : State :=
  let int := intOperands [o.a, o.b]
  let (cols, s) := s.readPaired f o.a [o.b] o.cnt
  let out := match cols with
    | [a, b] => (a.zip b).map fun (x, y) => arithRV int (.fin (b2n (p x.v y.v) : Nat)) [x, y]
    | _ => []
  (s.putBoth f o.y o.kept o.enc none out).s

def runCmp (i : FaceId → Vec2 → Instr) (p : Val → Val → Bool) (f : FaceId) (o : Vec2) (s : State) : Result :=
  issue s f (i f o) (firstOf [cmpRule (s.tbl f) o, queueRule s f [o.a, o.b]]) (compareEffect p f o)

/-- CMP_EQ (R112). -/
def execCmpEq (f : FaceId) (o : Vec2) (s : State) : Result := runCmp .cmpEq valEq f o s
/-- CMP_LT (R112). -/
def execCmpLt (f : FaceId) (o : Vec2) (s : State) : Result := runCmp .cmpLt valLt f o s
/-- CMP_LE (R112). -/
def execCmpLe (f : FaceId) (o : Vec2) (s : State) : Result := runCmp .cmpLe valLe f o s

/-! ### Moving instructions (R108, R109, R387, R388) -/

/-- SELECT: mask bit 1 picks a, 0 picks b. -/
def selectEffect (f : FaceId) (o : SelectOp) (s : State) : State :=
  let (n, s) := s.effCount f o.cnt (srcCount o.a)
  let (a, s) := s.readRaw f o.a n o.cnt.isSome
  let (b, s) := s.readRaw f o.b n o.cnt.isSome
  let (m, s) := s.readMask f o.mask (some n)
  s.putRaw f o.y ((a.zip (b.zip m)).map fun (x, y, mb) =>
    let r := if mb.1 then x else y
    some { r with mark := r.mark || mb.2 })

/-- SELECT (R387). -/
def execSelect (f : FaceId) (o : SelectOp) (s : State) : Result :=
  issue s f (.select f o) (firstOf [selectRule (s.tbl f) o, queueRule s f [o.a, o.b]]) (selectEffect f o)

/-- COMPRESS: selected elements in consecutive places, then their number as INT32. On a BP stream the number counts blocks, as a count
word of R103 counts descriptor elements (log entry 142, DESIGN CHOICE: R108 says values). -/
def compressEffect (f : FaceId) (o : CompressOp) (s : State) : State :=
  let (n, s) := s.effCount f o.cnt (srcCount o.a)
  let (a, s) := s.readRaw f o.a n o.cnt.isSome
  let (m, s) := s.readMask f o.mask (some n)
  let got := (a.zip m).filterMap fun (x, mb) => if mb.1 then some (some { x with mark := x.mark || mb.2 }) else none
  (s.putRaw f o.y got).spStore f o.countW.toNat 4 got.length

/-- COMPRESS (R108). -/
def execCompress (f : FaceId) (o : CompressOp) (s : State) : Result :=
  issue s f (.compress f o) (firstOf [compressRule (s.tbl f) o, queueRule s f [o.a]]) (compressEffect f o)

/-- Positions with mask bit 1 take the next packed element; every other position, and one after the packed elements have run
out, takes the fill: zero, or `none` for MERGE. -/
def expandInto (zero : Option Raw) : List (Bool × Bool) → List Raw → List (Option Raw)
  | [], _ => []
  | mb :: ms, packed =>
    let mark := fun (r : Raw) => { r with mark := r.mark || mb.2 }
    if mb.1 then
      match packed with
      | x :: r => some (mark x) :: expandInto zero ms r
      | [] => zero.map mark :: expandInto zero ms []
    else zero :: expandInto zero ms packed

/-- EXPAND. A position kept by MERGE whose mask bit is poisoned is copied in place with the mark (R388). -/
def expandEffect (f : FaceId) (o : ExpandOp) (s : State) : State :=
  let (n, s) := s.effCount f o.cnt (srcCount o.a)
  let (a, s) := s.readRaw f o.a n o.cnt.isSome
  let (m, s) := s.readMask f o.mask none
  let fmt := dstFmt o.y
  if o.merge then
    let (old, s) := s.readRaw f (.mem o.y.st) m.length false
    s.putRaw f o.y ((((expandInto none m a).zip (old.zip m))).map fun (v, w, mb) =>
      match v with
      | some r => some r
      | none => if mb.2 then some { w with mark := true } else none)
  else s.putRaw f o.y (expandInto (some ⟨zeroPat fmt, false⟩) m a)

/-- EXPAND (R109). -/
def execExpand (f : FaceId) (o : ExpandOp) (s : State) : Result :=
  issue s f (.expand f o) (firstOf [expandRule (s.tbl f) o, queueRule s f [o.a]]) (expandEffect f o)

/-! ### Conversion (R43, R115) -/

def convertEffect (f : FaceId) (o : ConvertOp) (s : State) : State :=
  let int := intOperands [o.a]
  let (a, s) := s.readFirst f o.a o.cnt
  let p := s.putBoth f o.y o.kept o.enc (s.srKey f o.sr) (a.map fun r => ⟨r.v, r.ieee, int && r.mark, false, none⟩)
  p.s.putStat f o.stat p.res p.full

/-- CONVERT (R115). -/
def execConvert (f : FaceId) (o : ConvertOp) (s : State) : Result :=
  issue s f (.convert f o) (firstOf [convertRule (s.tbl f) o, queueRule s f [o.a]]) (convertEffect f o)

/-! ### Reductions (R110, R111) -/

/-- Groups of `n` in order; the last may be short. -/
def groupsOf {α : Type} (n : Nat) : Nat → List α → List (List α)
  | 0, _ => []
  | fuel + 1, l => if l.isEmpty then [] else l.take n :: groupsOf n fuel (l.drop n)

def sumEffect (f : FaceId) (o : SumOp) (s : State) : State :=
  let len := groupLen o.a o.two (srcFmt o.a).valuesPer
  let (a, s) := s.readFirst f o.a o.cnt
  (s.put f o.y o.enc none ((groupsOf len a.length a).map fun g => RV.of (laneSum (g.map (·.v))))).s

/-- SUM (R110). -/
def execSum (f : FaceId) (o : SumOp) (s : State) : Result :=
  issue s f (.sum f o) (firstOf [sumRule (s.tbl f) o, queueRule s f [o.a]]) (sumEffect f o)

/-- The winner of R111: the first NaR, else the largest (or smallest) value of lowest index. -/
def winner (better : Rat → Rat → Bool) : List Val → Nat → Option (Nat × Val) → Option (Nat × Val)
  | [], _, best => best
  | v :: r, i, best =>
    match v, best with
    | .fin q, some (_, .fin p) => winner better r (i + 1) (if better q p then some (i, v) else best)
    | .fin _, none => winner better r (i + 1) (some (i, v))
    | .fin _, some _ => winner better r (i + 1) best
    | _, some (_, .fin _) => winner better r (i + 1) (some (i, .nar))
    | _, none => winner better r (i + 1) (some (i, .nar))
    | _, some _ => winner better r (i + 1) best

/-- An INT32 group with a poisoned element marks both results (R105, R248). -/
def redEffect (better : Rat → Rat → Bool) (f : FaceId) (o : RedOp) (s : State) : State :=
  let int := intOperands [o.a]
  let len := groupLen o.a o.two 1
  let (a, s) := s.readFirst f o.a o.cnt
  let ws := (groupsOf len a.length a).map fun g =>
    let w := (winner better (g.map (·.v)) 0 none).getD (0, .nar)
    let bad := int && g.any (·.mark)
    ({ RV.of w.2 with mark := bad }, { RV.of (.fin (w.1 : Nat)) with mark := bad })
  let enc : BpEnc := ⟨false, 0⟩
  let s := (s.put f o.y enc none (ws.map (·.1))).s
  (s.put f o.idx enc none (ws.map (·.2))).s

/-- MAXR (R111). -/
def execMaxr (f : FaceId) (o : RedOp) (s : State) : Result :=
  issue s f (.maxr f o) (firstOf [redRule (s.tbl f) o, queueRule s f [o.a]]) (redEffect (fun q p => decide (p < q)) f o)
/-- MINR (R111). -/
def execMinr (f : FaceId) (o : RedOp) (s : State) : Result :=
  issue s f (.minr f o) (firstOf [redRule (s.tbl f) o, queueRule s f [o.a]]) (redEffect (fun q p => decide (q < p)) f o)

/-! ### Raw quires and status words -/

/-- The exact sum of two raw quires of width w, or the quire NaR pattern (R107). -/
def quireAdd (w a b : Nat) : Nat :=
  let x := toSigned w a + toSigned w b
  if a = 2 ^ (w - 1) ∨ b = 2 ^ (w - 1) ∨ quireMax w < intAbs x then 2 ^ (w - 1) else ofSigned w x

/-- A poisoned quire reads as NaR (R248). -/
def qaddEffect (f : FaceId) (o : QaddOp) (s : State) : State :=
  let w := (dstFmt o.y).bits
  let (n, s) := s.effCount f o.cnt (streamCount o.a.desc)
  let (a, s) := s.readRaw f (.mem o.a) n false
  let (b, s) := s.readRaw f (.mem o.b) n false
  let nar := fun (r : Raw) => if r.mark then 2 ^ (w - 1) else r.pat
  let out := (a.zip b).map fun (x, y) => quireAdd w (nar x) (nar y)
  let (mask, s) := s.dstMask f o.y out.length
  let addrs := (streamAddrs f o.y.st.desc).take out.length
  s.spWrite f ((addrs.zip (mask.zip out)).flatMap fun (ad, mb, v) =>
    if !mb.1 then (if dstKeeps o.y then [] else [⟨ad, w, 0, false⟩])
    else [⟨ad, w, if mb.2 then 2 ^ (w - 1) else v, false⟩])

/-- QADD (R107). -/
def execQadd (f : FaceId) (o : QaddOp) (s : State) : Result := issue s f (.qadd f o) (qaddRule (s.tbl f) o) (qaddEffect f o)

/-- TSW_TEST (R106): a TSW read from a poisoned word gives a summary with the poison mark (R248). -/
def tswTestEffect (f : FaceId) (o : TswTestOp) (s : State) : State :=
  let (v, m, s) := s.spLoad f o.tsw.toNat 16
  s.spWrite f [⟨8 * spAddr f o.out.toNat, 32, tswSummary (v % 2 ^ 64) (v / 2 ^ 64), m⟩]

def execTswTest (f : FaceId) (o : TswTestOp) (s : State) : Result := issue s f (.tswTest f o) (tswTestRule o) (tswTestEffect f o)

/-- Zeros over a spall list's pages, folded into the digests word by word (R235). -/
def spallClearEffect (f : FaceId) (l : SpallDesc) (s : State) : State :=
  let n := ceilDiv l.units.toNat 32 * (slotsOf l.scode * 16)
  ({ s with mem := s.mem.scrub (spAddr f l.pbase.toNat) n }).foldWords f false
    ((List.range (n / 8)).map fun i => l.pbase.toNat + 8 * i)

/-- SPALL_CLEAR (R119). -/
def execSpallClear (f : FaceId) (l : NamedList) (s : State) : Result :=
  issue s f (.spallClear f l) (namedRule (s.tbl f) l.id (some l.desc)) (spallClearEffect f l.desc)

end Sys2Proof.Machine
end

