-- ==== Sys2Proof/Machine/Quant.lean ====
section
/-! DEFINITION. Per-row quantisation (R122, R123) and the finish of an integer product (R125, R126). -/

namespace Sys2Proof.Machine

/-- The scale of a row (R122): d, the zero point, the limits, and whether the zero point was clamped. -/
structure RowScale where
  d    : Rat
  z    : Int
  lo   : Int
  hi   : Int
  zSat : Bool
  deriving DecidableEq, Repr

def rowScale (asym : Bool) (w : Nat) (rest : List Rat) : RowScale :=
  let qmin := intMin w
  let qmax := intMax w
  if asym then
    let lo := rest.foldl ratMin 0
    let hi := rest.foldl ratMax 0
    if hi = lo then ⟨0, 0, qmin, qmax, false⟩
    else
      let d := r32 ((hi - lo) / ((qmax - qmin : Int) : Rat))
      let z0 := rne ((qmin : Rat) - lo / d)
      let z := clampInt qmin qmax z0
      ⟨d, z, qmin, qmax, decide (z ≠ z0)⟩
  else
    let m := rest.foldl (fun m q => ratMax m (ratAbs q)) 0
    ⟨if m = 0 then 0 else r32 (m / (qmax : Rat)), 0, -qmax, qmax, false⟩

/-- One quantised element: the integer, and whether it was clamped. -/
def quantOne (r : RowScale) (escaped : Bool) (v : Val) : Int × Bool :=
  match v with
  | .fin x =>
    if r.d = 0 || escaped then (r.z, false)
    else
      let q := rne (x / r.d) + r.z
      let c := clampInt r.lo r.hi q
      (c, decide (c ≠ q))
  | _ => (r.z, false)

/-- A quantised row: integers, outcomes, row record, escapes and refused escapes. -/
structure QuantRow where
  qs      : List Int
  res     : List Res
  record  : List Byte
  escapes : List Escape
  refused : Nat
  tot     : Totals

/-- One row by R122. The clamped elements and integers count in CONV_RANGE; N_SAT of the statistics block counts the elements alone, not
an escaped value whose posit32 slot form saturates, nor a clamped zero point (log entry 143, DESIGN CHOICE). -/
def quantRow (asym : Bool) (w : Nat) (esc : Byte) (free : Nat) (row : List Rd) : QuantRow :=
  let (got, refused) := escapes (bit esc.toNat 7) (row.map fun r => (SrcVal.of r.v).sq) (bits esc.toNat 4 0) free
  let idx := (List.range row.length).zip row
  let rest := idx.filterMap fun (i, r) => match r.v with
    | .fin q => if got.contains i then none else some q
    | _ => none
  let sc := rowScale asym w rest
  let qs := idx.map fun (i, r) => quantOne sc (got.contains i) r.v
  let res := (idx.zip qs).map fun ((i, r), q) =>
    if got.contains i then (⟨.escaped, r.v, r.v, false⟩ : Res)
    else match r.v with
      | .fin _ => ⟨.real, r.v, .fin (sc.d * ((q.1 - sc.z : Int) : Rat)), q.2⟩
      | _ => ⟨.nonreal, .nar, .nar, false⟩
  let order := match got with | [a, b] => [natMin2 a b, natMax2 a b] | l => l
  let es := order.filterMap fun i => (row[i]?).map fun r => (⟨r.v, r.ieee, none⟩ : SrcVal).escape i
  let rowsum := qs.foldl (fun s q => s + q.1) 0
  let sats := (qs.filter (·.2)).length + b2n sc.zSat + (es.filter (·.sat)).length
  let events := row.foldl (fun (t : Totals) r => match r.v with
    | .inf _ => { t with infIn := t.infIn + 1 }
    | .nan => { t with nanIn := t.nanIn + 1 }
    | .nar => { t with convNar := t.convNar + 1 }
    | .fin _ => t) Totals.zero
  { qs := qs.map (·.1), res := res
    record := leBytes 4 (positRound 32 sc.d) ++ leBytes 4 (ofSigned 32 rowsum) ++ leBytes 1 (ofSigned 8 sc.z)
      ++ leBytes 1 got.length ++ zeros 6
    escapes := es, refused := refused
    tot := { events with convRange := sats, spallFull := refused } }

/-- QUANT, row by row: purge and slots of the row's unit, then the integers and the records. A row that the count word cuts short is
quantised over the elements read, and its record is written (R103, log entry 133). -/
def quantEffect (f : FaceId) (o : QuantOp) (s : State) : State :=
  let w := (dstFmt o.y).intW
  let (a, s) := s.readFirst f o.a o.cnt
  let rows := groupsOf (rowShape o.a 1).1 a.length a
  let starts := (groupsOf o.y.st.desc.cnt0.toNat (streamCount o.y.st.desc) (streamAddrs f o.y.st.desc)).map fun g => g.headD 0
  let step := fun (acc : State × List Int × List Res × Nat) (x : Nat × Nat × List Rd) =>
    let (s, qs, rs, full) := acc
    let (i, a0, row) := x
    let u := match o.y.st.spall with | some l => unitOf l (a0 / 8 - spAddr f 0) | none => 0
    let s := s.purgeUnit f o.y.st.spall u
    let slots := s.freeSlots f o.y.st.spall u
    let r := quantRow o.asym w o.esc slots.length row
    let s := ((s.putEscapes f slots u r.escapes).count f r.tot).spBytes f (o.recs.toNat + 16 * i) r.record
    (s, qs ++ r.qs, rs ++ r.res, full + r.refused)
  let (s, qs, rs, full) := ((List.range rows.length).zip (starts.zip rows)).foldl step (s, [], [], 0)
  (s.put f o.y ⟨false, 0⟩ none (qs.map fun (q : Int) => RV.of (.fin (q : Rat)))).s.putStat f o.stat rs full

/-- QUANT (R122). -/
def execQuant (f : FaceId) (o : QuantOp) (s : State) : Result :=
  issue s f (.quant f o) (firstOf [quantRule (s.tbl f) o, queueRule s f [o.a]]) (quantEffect f o)

/-! ### INT_FINISH -/

/-- A row record as INT_FINISH reads it (R123); a marked word makes its field NaR. -/
structure RowRec where
  d      : Val
  rowsum : Val
  z      : Val
  nesc   : Nat
  deriving DecidableEq, Repr

def State.rowRec (s : State) (f : FaceId) (off : Nat) : RowRec :=
  let a := spAddr f off
  let m1 := s.mem.marked a 8
  let m2 := s.mem.marked (a + 8) 8
  { d := if m1 then .nar else positDecode 32 (s.mem.nat a 4)
    rowsum := if m1 then .nar else .fin (toSigned 32 (s.mem.nat (a + 4) 4))
    z := if m2 then .nar else .fin (toSigned 8 (s.mem.nat (a + 8) 1))
    nesc := s.mem.nat (a + 9) 1 % 4 }

/-- The slots of a unit, in page order. -/
def unitSlots (m : Mem) (f : FaceId) (l : Option SpallDesc) (u : Nat) : List Slot :=
  match l with
  | some l => (pageSlots m (pageAddr f l u) (slotsOf l.scode)).filter fun x => x.valid && x.unit == u
  | none => []

def Val.sub (a b : Val) : Val := Val.map2 (· - ·) a b
def Val.add (a b : Val) : Val := Val.map2 (· + ·) a b
def Val.mul (a b : Val) : Val := Val.map2 (· * ·) a b

/-- v of R125: exact, NaR where an input is. -/
def finishVal (acc : Val) (r : RowRec) (colsum zw : Val) (k : Nat) (esc : List (Val × Val)) (missing : Bool) : Val :=
  let kz := Val.mul (Val.mul (.fin (k : Rat)) r.z) zw
  let v := Val.add (Val.sub (Val.sub acc (Val.mul r.z colsum)) (Val.mul zw r.rowsum)) kz
  let v := Val.mul r.d v
  let v := esc.foldl (fun v (x, w) => Val.add v (Val.mul x (Val.sub w zw))) v
  if missing then .nar else v

/-- A value whose poison mark has made it NaR. -/
def Rd.real (r : Rd) : Val := if r.mark then .nar else r.v.toNar

def intFinishEffect (f : FaceId) (o : IntFinishOp) (s : State) : State :=
  let tileTsw := match o.acc, s.headTile f with
    | .queue .., some t => t.tsw0.toNat
    | _, _ => s.mem.nat (spAddr f o.tsw.toNat) 8
  let s := match o.acc with
    | .queue .. => s
    | .mem _ => s.noteReads (.face f.val) [(spAddr f o.tsw.toNat, 16)]
  let hasNar := decide (bits tileTsw 31 16 ≠ 0)
  let (acc, s) := s.readFirst f o.acc o.cnt
  let (cs, s) := s.readSrc f o.colsum none false
  let (zw, s) := s.readStream f o.zw none
  let rows := (List.range o.m).map fun m => s.rowRec f (o.recs.toNat + 16 * m)
  let s := s.noteReads (.face f.val) [(spAddr f o.recs.toNat, 16 * o.m)]
  let slots := (List.range o.m).map fun m => if o.passes = 0 then [] else unitSlots s.mem f o.spall (o.unit0 + m)
  let wRds := if slots.all (·.isEmpty) then [] else (readOut s.mem f o.w none).vals
  let wAt := fun e n => ((wRds[e * o.n + n]?).getD (Rd.nar false)).real
  let used := slots.flatMap fun l => l.map fun x => x.elem
  let wFmt := StreamFmt o.w.desc
  let wAddrs := if used.isEmpty then [] else streamAddrs f o.w.desc
  let s := s.noteReads (.face f.val) (used.flatMap fun e => (List.range o.n).map fun n =>
    let a := (wAddrs[e * o.n + n]?).getD (8 * spAddr f 0); (a / 8, elemBytes wFmt a))
  let s := s.noteReads (.face f.val) (match o.spall with
    | some l => if o.passes = 0 then [] else (List.range o.m).map fun m => (pageAddr f l (o.unit0 + m), 16 * slotsOf l.scode)
    | none => [])
  let perRow : List (RowRec × List Slot × List (Rd × Totals) × Nat) :=
    (rows.zip slots).map fun (r, l) => (r, l, l.map Slot.value?, r.nesc - l.length)
  let tot := perRow.foldl (fun (t : Totals) (_, _, vs, miss) =>
    (vs.foldl (fun (t : Totals) v => t.plus v.2) t).plus { Totals.zero with spallMiss := miss }) Totals.zero
  let out := ((List.range o.m).zip perRow).flatMap fun (m, r, l, vs, miss) => (List.range o.n).filterMap fun n =>
    if acc.length ≤ m * o.n + n then none else
    let a := (acc[m * o.n + n]?).getD (Rd.nar false)
    let av := if hasNar && a.pat == 0x80000000 then Val.nar else a.real
    let esc := (l.zip vs).map fun (x, v) => (v.1.real, wAt x.elem n)
    some (RV.of (finishVal av r ((cs[n]?).getD (Rd.nar false)).real ((zw[n]?).getD (Rd.nar false)).real o.k esc (decide (miss ≠ 0))))
  let p := (s.count f tot).putBoth f o.y o.kept o.enc none out
  p.s.putStat f o.stat p.res p.full

/-- INT_FINISH (R125). -/
def execIntFinish (f : FaceId) (o : IntFinishOp) (s : State) : Result :=
  issue s f (.intFinish f o) (firstOf [intFinishRule (s.tbl f) o, queueRule s f [o.acc, o.colsum]]) (intFinishEffect f o)

end Sys2Proof.Machine
end

