-- ==== Sys2Proof/Machine/Function.lean ====
section
/-! DEFINITION. The function unit and the normaliser: built-in exp2 and log2, user tables, the fused gate, soft maximum, row
normalisation and their gradients (R129 to R168). -/

namespace Sys2Proof.Machine

/-! ### One evaluation (R132) -/

/-- The Face's active table bank (R141). -/
def FnBanks.bankOf (b : FnBanks) (one : Bool) : Bank := if one then b.bank1 else b.bank0
def FnBanks.live (b : FnBanks) : Bank := b.bankOf b.active
def FnBanks.shadow (b : FnBanks) : Bank := b.bankOf (!b.active)
def FnBanks.setBank (b : FnBanks) (one : Bool) (x : Bank) : FnBanks :=
  if one then { b with bank1 := x } else { b with bank0 := x }

/-- The number and the contents of the bank that a Face's program reads: the one that was active at the start of the program's own tick,
whatever has been swapped or loaded while the program slips (R141, R222). -/
def Face.fnBank (x : Face) : Bool × Bank := x.tickBanks.getD x.slip (x.units.banks.active, x.units.banks.live)

/-- The running firmware image (R357). -/
def State.runImage (s : State) : Option FwSlot := if s.fw.runSlot then s.fw.slotB else s.fw.slotA

/-- Version of the running function-table set (R133, R230). -/
def State.ftsVer (s : State) : BitVec 16 :=
  match s.runImage with
  | some x => (x.revs >>> 48).setWidth 16
  | none => 0

/-- A coefficient of a built-in function; c0 of segment 0 is fixed (R133), in the CZ1 set too (log entry 36). -/
def builtinCoef (fts : BitVec 16) (cz1 log : Bool) (j i : Nat) : Rat :=
  if j = 0 ∧ i = 0 then (if log then 0 else 1)
  else (positDecode 32 (if cz1 then Config.cz1Coef fts log j i else Config.nativeCoef fts log j i).toNat).toRat

/-- c0 + c1 u + c2 u² + …, exact (R132). -/
def polyExact (cs : List Rat) (u : Rat) : Rat := cs.foldr (fun c p => c + u * p) 0

/-- The CZ1 polynomial: one rounding at each step (R147). -/
def polyCz1 (c0 c1 c2 u : Rat) : Rat := r32 (r32 (c2 * u + c1) * u + c0)

/-- The polynomial of segment `floor(N × part)` of a built-in at `part` in [0, 1): N is 64, or 32 by the CZ1 rule (R133, R147). -/
def builtinPoly (fts : BitVec 16) (cz1 log : Bool) (part : Rat) : Rat :=
  let n : Nat := if cz1 then 32 else 64
  let j := (part * (n : Rat)).floor.toNat
  let u := part - mkRat j n
  let c := builtinCoef fts cz1 log j
  if cz1 then polyCz1 (c 0) (c 1) (c 2) u else polyExact [c 0, c 1, c 2, c 3, c 4] u

/-- v = 2^n × p. The exponent is held within ±2000, which no product of posits can bring back into range. -/
def exp2Raw (fts : BitVec 16) (cz1 : Bool) (x : Rat) : Rat :=
  pow2 (clampInt (-2000) 2000 x.floor) * builtinPoly fts cz1 false (x - (x.floor : Rat))

/-- v = n + p for x = 2^n × m (R133). -/
def log2Raw (fts : BitVec 16) (cz1 : Bool) (x : Rat) : Rat :=
  let e := floorLog2 x
  (e : Rat) + builtinPoly fts cz1 true (x / pow2 e - 1)

/-- Threshold of exp2 for output width N (R133, R147). -/
def exp2Tau (cz1 : Bool) (n : Nat) : Rat := if cz1 then pow2 (-40) else minpos n

/-- What an evaluation answers: a value to be rounded once, and what it counts; `hit` is the table entry it read. -/
structure FnOut where
  v      : Val
  flush  : Bool
  domain : Bool
  hit    : Option Nat
  deriving DecidableEq, Repr

/-- The flush test of R132. -/
def flushed (v tau : Rat) (hit : Option Nat) : FnOut :=
  if v ≠ 0 ∧ ratAbs v < tau then ⟨.fin 0, true, false, hit⟩ else ⟨.fin v, false, false, hit⟩

/-- exp2 with the cases of R134 that lie outside the output's range; the CZ1 threshold replaces the flush case (log entry 37). Above the
range the answer is a value that R32 saturates, so that its write counts in CONV_RANGE (R47, log entry 38). -/
def exp2Out (fts : BitVec 16) (cz1 : Bool) (n : Nat) (x : Rat) : FnOut :=
  let top : Rat := ((4 * (n - 2) : Nat) : Rat)
  if top < x then ⟨.fin (2 * maxpos n), false, false, none⟩
  else if !cz1 && decide (x < -top) then ⟨.fin 0, true, false, none⟩
  else flushed (exp2Raw fts cz1 x) (exp2Tau cz1 n) none

def log2Out (fts : BitVec 16) (cz1 : Bool) (x : Rat) : FnOut :=
  if x ≤ 0 then ⟨.nar, false, true, none⟩ else flushed (log2Raw fts cz1 x) 0 none

/-! ### What R135 says of the native coefficients

`Config.nativeCoef` is opaque, so R135's accuracy and monotonicity are no facts of the model (log entry 147). A claim that needs them takes
`NativeAccurate` as its hypothesis. -/

/-- y lies below 2^x, and above it, decided on integer powers. -/
def belowExp2 (x y : Rat) : Prop := y ≤ 0 ∨ y ^ x.den < pow2 x.num
def aboveExp2 (x y : Rat) : Prop := 0 < y ∧ pow2 x.num < y ^ x.den
/-- y lies below log2 x, and above it, for x > 0. -/
def belowLog2 (x y : Rat) : Prop := pow2 y.num < x ^ y.den
def aboveLog2 (x y : Rat) : Prop := x ^ y.den < pow2 y.num

/-- Pattern p of width n is one of the two encodings that bracket a real value, or is that value: its neighbours lie on either side. -/
def Brackets (n p : Nat) (below above : Rat → Prop) : Prop :=
  (∀ q, positDecode n ((p + 1) % 2 ^ n) = .fin q → above q) ∧ (∀ q, positDecode n ((p + 2 ^ n - 1) % 2 ^ n) = .fin q → below q)

/-- R135 for the native set of a function-table version: within 1 ulp but for the cases of R134, and monotone. -/
def NativeAccurate (fts : BitVec 16) : Prop :=
  ∀ n ∈ [8, 16, 32], ∀ a b : BitVec 32, ∀ x y : Rat, positDecode 32 a.toNat = .fin x → positDecode 32 b.toNat = .fin y →
    (ratAbs x ≤ ((4 * (n - 2) : Nat) : Rat) → !(exp2Out fts false n x).flush →
      Brackets n (positEncode n (exp2Out fts false n x).v) (belowExp2 x) (aboveExp2 x))
    ∧ (0 < x → Brackets n (positEncode n (log2Out fts false x).v) (belowLog2 x) (aboveLog2 x))
    ∧ (x ≤ y → (positDecode n (positEncode n (exp2Out fts false n x).v)).toRat ≤ (positDecode n (positEncode n (exp2Out fts false n y).v)).toRat)
    ∧ (0 < x → x ≤ y → (positDecode n (positEncode n (log2Out fts false x).v)).toRat ≤ (positDecode n (positEncode n (log2Out fts false y).v)).toRat)

/-! ### User tables (R136 to R138, R147) -/

def Table.segbits (t : Table) : Nat := leAt t.header 1 1
def Table.mono (t : Table) : Nat := leAt t.header 2 1 % 4
def Table.sym (t : Table) : Nat := leAt t.header 3 1 % 4
def Table.outfmt (t : Table) : Nat := leAt t.header 4 1 % 8
def Table.evalCz1 (t : Table) : Bool := bit (leAt t.header 4 1) 3
def Table.tau (t : Table) : Rat := (positDecode 32 (leAt t.header 8 4)).toRat
def Table.count (t : Table) : Nat := leAt t.header 12 4

/-- Whether the table serves posits of width n (R137 OUTFMT). -/
def Table.serves (t : Table) (n : Nat) : Bool := bit t.outfmt (if n = 8 then 0 else if n = 16 then 1 else 2)

/-- The anchor of segment j (R136). -/
def tableAnchor (s j : Nat) : Rat :=
  if j = 2 ^ (s - 1) then -(maxpos 32) else (positDecode 32 (j * 2 ^ (32 - s))).toRat

/-- Segment, offset and σ of an argument (R136). -/
def Table.locate (t : Table) (x : Rat) : Nat × Rat × Rat :=
  let a := if t.sym = 0 then x else ratAbs x
  let sigma : Rat := if t.sym = 1 ∧ x < 0 then -1 else 1
  let j := positRound 32 a / 2 ^ (32 - t.segbits)
  (j, a - tableAnchor t.segbits j, sigma)

/-- outer(p) of the table at x, by the native rule or the CZ1 rule. -/
def Table.raw (t : Table) (cz1 : Bool) (x : Rat) : Nat × Rat :=
  let (j, u, sigma) := t.locate x
  let (c0, c1, c2) := t.entries.getD j (0, 0, 0)
  let c := fun (b : BitVec 32) => (positDecode 32 b.toNat).toRat
  (j, sigma * (if cz1 then polyCz1 (c c0) (c c1) (c c2) u else polyExact [c c0, c c1, c c2] u))

/-! ### Function instructions -/

/-- Which function an instruction names, resolved in the active bank. -/
inductive FnFun where
  | exp2 | log2
  | table (t : Table)
  deriving DecidableEq, Repr

/-- One element by R132, or by R149 with a gate value. Where the gate value is NaR the result is NaR and FN_DOMAIN does not count an
argument outside the domain (log entry 144, DESIGN CHOICE). -/
def evalOne (fts : BitVec 16) (cz1 : Bool) (fn : FnFun) (n : Nat) (gate : Option Val) (x : Val) : FnOut :=
  match x, gate with
  | .fin x, none =>
    (match fn with
      | .exp2 => exp2Out fts cz1 n x
      | .log2 => log2Out fts cz1 x
      | .table t => let r := t.raw cz1 x; flushed r.2 t.tau (some r.1))
  | .fin x, some (.fin g) =>
    (match fn with
      | .exp2 => flushed (g * exp2Raw fts cz1 x) (exp2Tau cz1 n) none
      | .log2 => if x ≤ 0 then ⟨.nar, false, true, none⟩ else flushed (g * log2Raw fts cz1 x) 0 none
      | .table t => let r := t.raw cz1 x; flushed (g * r.2) t.tau (some r.1))
  | _, _ => ⟨.nar, false, false, none⟩

/-- Uncorrectable words that a unit's own store gives up: records and the counter (R141, R180, R250). -/
def State.noteStore (s : State) (f : FaceId) (store n : Nat) : State :=
  (List.range n).foldl (fun s _ => s.raise 0x0301 (.face f.val) 0 [BitVec.ofNat 8 store])
    { s with mem := { s.mem with ue := satAdd 32 s.mem.ue n } }

/-- What the entry reads of a slot leave behind: an uncorrectable entry is found once. -/
def State.noteEntries (s : State) (f : FaceId) (slot : Nat) (hits : List Nat) : State :=
  let b := (s.face f).units.banks
  let one := (s.face f).fnBank.1
  let bk := b.bankOf one
  let new := bk.ue.filter fun e => e.1 == slot && hits.contains e.2
  let old := bk.ueSeen.filter fun e => e.1 == slot && hits.contains e.2
  if new.isEmpty ∧ old.isEmpty then s
  else
    let bk := { bk with ue := bk.ue.filter fun e => !new.contains e, ueSeen := bk.ueSeen ++ new }
    let s := s.updUnits f fun u => { u with banks := b.setBank one bk }
    let s := { s with mem := { s.mem with poisonRd := satAdd 32 s.mem.poisonRd old.length } }
    s.noteStore f 4 new.length

/-- OFMT code of a posit width (R65). -/
def positCode (n : Nat) : Nat := if n = 8 then 1 else if n = 16 then 2 else 3

/-- R145: every element becomes NaR; one warning for the Face in the tick. -/
def State.noTable (s : State) (f : FaceId) (slot n count : Nat) : State :=
  let seen := (s.face f).notableSeen
  let s := (s.count f { Totals.zero with fnNotable := count }).updFace f fun x => { x with notableSeen := true }
  if seen then s else s.raise 0x0102 (.face f.val) 0 [BitVec.ofNat 8 slot, BitVec.ofNat 8 (positCode n)]

def fnTotals (l : List FnOut) : Totals :=
  { Totals.zero with fnFlush := (l.filter (·.flush)).length, fnDomain := (l.filter (·.domain)).length }

/-- The function instructions: arguments, an optional gate stream, and the function's name. Every element read is evaluated and counts
in FN_FLUSH, FN_DOMAIN and FN_NOTABLE, those too that the write stream's mask then leaves out (log entry 145, DESIGN CHOICE). A slipped
program reads the bank that was active at the start of its own tick (R141, R222). -/
def fnEffect (f : FaceId) (sel : FnSel) (a : Src) (g : Option Src) (y : Dst) (cnt : Option SpOff) (kept : Option Kept)
    (s : State) : State :=
  let n := (dstFmt y).positN
  let (cols, s) := s.readPaired f a (match g with | some g => [g] | none => []) cnt
  let xs := (cols.headD []).map (·.v)
  let gs : List (Option Val) := match cols with
    | [_, gv] => gv.map fun r => some r.v
    | _ => xs.map fun _ => none
  let bank := (s.face f).fnBank.2
  let words := (s.face f).units.banks.bankOf (s.face f).fnBank.1
  let fn : Option FnFun := match sel with
    | .exp2 => some .exp2
    | .log2 => some .log2
    | .slot i => ((bank.slots.getD i.val none).filter fun t => t.serves n).map .table
  let enc : BpEnc := ⟨false, 0⟩
  match fn, sel with
  | none, .slot i => ((s.noTable f i.val n xs.length).putBoth f y kept enc none (xs.map fun _ => RV.of .nar)).s
  | none, _ => s
  | some fn, _ =>
    let outs := (xs.zip gs).map fun (x, g) => evalOne s.ftsVer bank.cz1 fn n g x
    let slot := match sel with | .slot i => i.val | _ => 8
    let bad := fun (o : FnOut) => match o.hit with
      | some j => words.ue.contains (slot, j) || words.ueSeen.contains (slot, j)
      | none => false
    let outs := outs.map fun o => if bad o then { o with v := .nar, flush := false } else o
    let s := (s.noteEntries f slot (outs.filterMap (·.hit))).count f (fnTotals outs)
    (s.putBoth f y kept enc none (outs.map fun o => RV.of o.v)).s

/-- FN_EXP2 (R132 to R134). -/
def execFnExp2 (f : FaceId) (o : FnOp) (s : State) : Result :=
  issue s f (.fnExp2 f o) (firstOf [fnRule (s.tbl f) [o.a] o.y o.cnt o.kept, queueRule s f [o.a]]) (fnEffect f .exp2 o.a none o.y o.cnt o.kept)
/-- FN_LOG2 (R132 to R134). -/
def execFnLog2 (f : FaceId) (o : FnOp) (s : State) : Result :=
  issue s f (.fnLog2 f o) (firstOf [fnRule (s.tbl f) [o.a] o.y o.cnt o.kept, queueRule s f [o.a]]) (fnEffect f .log2 o.a none o.y o.cnt o.kept)
/-- FN_TAB (R136, R145). -/
def execFnTab (f : FaceId) (slot : Fin 8) (o : FnOp) (s : State) : Result :=
  issue s f (.fnTab f slot o) (firstOf [fnRule (s.tbl f) [o.a] o.y o.cnt o.kept, queueRule s f [o.a]]) (fnEffect f (.slot slot) o.a none o.y o.cnt o.kept)
/-- FN_GATE (R149). -/
def execFnGate (f : FaceId) (o : GateOp) (s : State) : Result :=
  issue s f (.fnGate f o) (firstOf [fnRule (s.tbl f) [o.a, o.g] o.y o.cnt o.kept, queueRule s f [o.a, o.g]])
    (fnEffect f o.f o.a (some o.g) o.y o.cnt o.kept)

/-! ### Soft maximum (R150 to R152) -/

/-- exp2_32: the built-in exp2 with posit32 output, its value and whether it flushed. -/
def exp2At32 (fts : BitVec 16) (cz1 : Bool) (d : Rat) : Rat × Nat :=
  let o := exp2Out fts cz1 32 d
  (r32 o.v.toRat, b2n o.flush)

/-- A lane of SMAX1: (m, s), or empty, and its flushes. -/
abbrev SmLane := Option (Rat × Rat) × Nat

/-- A lane takes one element; a masked element leaves it alone. -/
def smStep (ex : Rat → Rat × Nat) (l : SmLane) (x : Option Rat) : SmLane :=
  match x, l with
  | none, l => l
  | some x, (none, k) => (some (x, 1), k)
  | some x, (some (m, s), k) =>
    if x ≤ m then let e := ex (r32 (x - m)); (some (m, r32 (s + e.1)), k + e.2)
    else let e := ex (r32 (m - x)); (some (x, r32 (s * e.1 + 1)), k + e.2)

/-- combine of R150. -/
def smCombine (ex : Rat → Rat × Nat) (p q : SmLane) : SmLane :=
  match p, q with
  | (none, k), (y, l) => (y, k + l)
  | (x, k), (none, l) => (x, k + l)
  | (some (m1, s1), k), (some (m2, s2), l) =>
    let mx := ratMax m1 m2
    let e1 := ex (r32 (m1 - mx))
    let e2 := ex (r32 (m2 - mx))
    (some (mx, r32 (s1 * e1.1 + s2 * e2.1)), k + l + e1.2 + e2.2)

/-- An element of a soft-maximum row under its mask bit (R388). -/
def smElem (x : Rd × (Bool × Bool)) : Option Val :=
  if !x.2.1 then none else if x.2.2 then some .nar else some x.1.v

/-- The record of a row: M, S and the flushes (R150, R152). A row with an unmasked NaR counts no flush (log entry 146, DESIGN
CHOICE). -/
def smaxRow (ex : Rat → Rat × Nat) (row : List (Option Val)) : Val × Val × Nat :=
  if row.any fun x => match x with | some v => !v.isReal | none => false then (.nar, .nar, 0)
  else
    let xs := row.map fun x => x.map Val.toRat
    match (laneTree (smCombine ex) (laneRun (smStep ex) (xs.length + 1) (List.replicate 256 (none, 0)) xs)).headD (none, 0) with
    | (none, _) => (.fin 0, .fin 0, 0)
    | (some (m, s), k) => (.fin m, .fin s, k)

def State.optMask (s : State) (f : FaceId) (m : Option Stream) (n : Nat) : List (Bool × Bool) × State :=
  match m with
  | some st => s.readMask f st (some n)
  | none => (List.replicate n (true, false), s)

def posit32Bytes (v : Val) : List Byte := leBytes 4 (positEncode 32 v)

def State.exp2Fn (s : State) (f : FaceId) : Rat → Rat × Nat := exp2At32 s.ftsVer (s.face f).fnBank.2.cz1

def smax1Effect (f : FaceId) (o : Smax1Op) (s : State) : State :=
  let (a, s) := s.readFirst f o.a o.cnt
  let (m, s) := s.optMask f o.mask a.length
  let rows := groupsOf (rowShape o.a 1).1 a.length ((a.zip m).map smElem)
  let out := rows.map (smaxRow (s.exp2Fn f))
  let s := s.count f { Totals.zero with fnFlush := out.foldl (fun n r => n + r.2.2) 0 }
  s.spBytes f o.recs.toNat (out.flatMap fun r => posit32Bytes r.1 ++ posit32Bytes r.2.1)

/-- SMAX1 (R150, R152). -/
def execSmax1 (f : FaceId) (o : Smax1Op) (s : State) : Result :=
  issue s f (.smax1 f o) (firstOf [smax1Rule (s.tbl f) o, queueRule s f [o.a]]) (smax1Effect f o)

/-- One row of SMAX2: values, flushes, and 1 for an empty row (R151, R152). A NaR record, or an unmasked NaR in the row, makes every
element NaR. -/
def smax2Row (ex : Rat → Rat × Nat) (mv sv : Val) (row : List (Option Val)) : List Val × Nat × Nat :=
  if row.all Option.isNone then (row.map fun _ => .fin 0, 0, 1)
  else if row.any fun x => match x with | some v => !v.isReal | none => false then (row.map fun _ => .nar, 0, 0)
  else match mv, sv with
    | .fin m, .fin sum =>
      let r := if sum = 0 then none else some (r32 (1 / sum))
      let out := row.map fun x => match x with
        | none => ((.fin 0 : Val), 0)
        | some (.fin z) => (match r with
          | some r => let e := ex (r32 (z - m)); (.fin (e.1 * r), e.2)
          | none => (.nar, 0))
        | some _ => (.nar, 0)
      (out.map (·.1), out.foldl (fun n x => n + x.2) 0, 0)
    | _, _ => (row.map fun _ => .nar, 0, 0)

def smax2Effect (f : FaceId) (o : Smax2Op) (s : State) : State :=
  let (a, s) := s.readFirst f o.a o.cnt
  let (m, s) := s.optMask f o.mask a.length
  let rows := groupsOf (rowShape o.a 1).1 a.length ((a.zip m).map smElem)
  let recs := (List.range rows.length).map fun i => (s.spPosit32 f (o.recs.toNat + 8 * i), s.spPosit32 f (o.recs.toNat + 8 * i + 4))
  let s := s.noteReads (.face f.val) [(spAddr f o.recs.toNat, 8 * rows.length)]
  let out := (recs.zip rows).map fun (r, row) => smax2Row (s.exp2Fn f) r.1 r.2 row
  let s := s.count f { Totals.zero with
    fnFlush := out.foldl (fun n r => n + r.2.1) 0, fnEmpty := out.foldl (fun n r => n + r.2.2) 0 }
  (s.putBoth f o.y o.kept o.enc none ((out.flatMap (·.1)).map RV.of)).s

/-- SMAX2 (R151, R152). -/
def execSmax2 (f : FaceId) (o : Smax2Op) (s : State) : Result :=
  issue s f (.smax2 f o) (firstOf [smax2Rule (s.tbl f) o, queueRule s f [o.a]]) (smax2Effect f o)

/-! ### Row normalisation (R153, R154) -/

def sumRat (l : List Rat) : Rat := l.foldl (· + ·) 0

/-- Exact mean and variance of a row (R153, R166). -/
def rowMoments (rms : Bool) (xs : List Rat) : Rat × Rat :=
  let n : Rat := ((xs.length : Nat) : Rat)
  let mu := if rms then 0 else sumRat xs / n
  (mu, sumRat (xs.map fun x => x * x) / n - mu * mu)

/-- 1 ÷ √(var + ε), correctly rounded where it is written; NaR where var + ε is 0 or negative (R105, R153). -/
def rstdOf (var : Rat) (eps : Val) : Val :=
  match eps with
  | .fin e => if var + e ≤ 0 then .nar else .fin (sqrtSticky 256 (1 / (var + e)))
  | _ => .nar

/-- The posit32 fields of a record, before their roundings: MEAN, VAR and RSTD. -/
def normFields (o : NormStatsOp) (row : List Val) : List Val :=
  if row.all Val.isReal then
    let (mu, var) := rowMoments o.rms (row.map Val.toRat)
    [.fin mu, .fin var, rstdOf var (positDecode 32 o.eps.toNat)]
  else [.nar, .nar, .nar]

/-- A posit32 field that R32 saturates counts in CONV_RANGE (R47). -/
def posit32Sats (l : List Val) : Totals :=
  { Totals.zero with convRange := (l.filter fun v => match v with | .fin q => positSat 32 q | _ => false).length }

def normStatsEffect (f : FaceId) (o : NormStatsOp) (s : State) : State :=
  let (a, s) := s.readFirst f o.a o.cnt
  let rows := groupsOf (rowShape o.a 1).1 a.length (a.map (·.v))
  let recs := rows.map fun r => (normFields o r, r.length)
  (s.count f (posit32Sats (recs.flatMap (·.1)))).spBytes f o.recs.toNat
    (recs.flatMap fun r => r.1.flatMap posit32Bytes ++ leBytes 4 r.2)

/-- NORM_STATS (R153). -/
def execNormStats (f : FaceId) (o : NormStatsOp) (s : State) : Result :=
  issue s f (.normStats f o) (firstOf [normStatsRule (s.tbl f) o, queueRule s f [o.a]]) (normStatsEffect f o)

/-- Values of a parameter stream, or a constant where none is named. -/
def State.param (s : State) (f : FaceId) (p : Option Src) (dflt : Val) (n : Nat) (counted : Bool) : List Val × State :=
  match p with
  | some x => let (v, s) := s.readSrc f x (some n) counted; (v.map (·.v), s)
  | none => (List.replicate n dflt, s)

/-- Posit32 fields of row records, `size` bytes a row. -/
def State.recFields (s : State) (f : FaceId) (base size rows : Nat) (offs : List Nat) : List (List Val) × State :=
  ((List.range rows).map fun i => offs.map fun k => s.spPosit32 f (base + size * i + k),
   s.noteReads (.face f.val) [(spAddr f base, size * rows)])

def normApplyEffect (f : FaceId) (o : NormApplyOp) (s : State) : State :=
  let len := (rowShape o.a (srcFmt o.a).valuesPer).1
  let (a, s) := s.readFirst f o.a o.cnt
  let (g, s) := s.param f o.gamma (.fin 1) a.length o.cnt.isSome
  let (b, s) := s.param f o.beta (.fin 0) a.length o.cnt.isSome
  let (recs, s) := s.recFields f o.recs.toNat 16 (ceilDiv a.length len) [0, 8]
  let out := ((List.range a.length).zip (a.zip (g.zip b))).map fun (i, x, g, b) =>
    match recs[i / len]? with
    | some [mean, rstd] => RV.of (Val.add (Val.mul (Val.mul (Val.sub x.v.toNar mean) rstd) g) b)
    | _ => RV.of .nar
  (s.putBoth f o.y o.kept o.enc none out).s

/-- NORM_APPLY (R154). -/
def execNormApply (f : FaceId) (o : NormApplyOp) (s : State) : Result :=
  issue s f (.normApply f o) (firstOf [normApplyRule (s.tbl f) o, queueRule s f (o.a :: (o.gamma.toList ++ o.beta.toList))]) (normApplyEffect f o)

/-! ### Gradients (R164 to R168) -/

/-- BSTAT of the Face's program: `true` is the CZ1 mode (R164). -/
def State.bstat (s : State) (f : FaceId) : Bool := match (s.face f).prog with | some p => p.bstat | none => false

/-- One row of operands: x, dy and γ of each element. -/
abbrev GradRow := List (Val × Val × Val)

def gradRows (len : Nat) (x dy g : List Rd) : List GradRow :=
  groupsOf len x.length ((x.zip (dy.zip g)).map fun (a, b, c) => (a.v, b.v, c.v))

def GradRow.real (r : GradRow) : Bool := r.all fun t => t.1.isReal && t.2.1.isReal && t.2.2.isReal

/-- Native record of a row: MEAN, RSTD, C1, C2 before their roundings (R166). -/
def gradNative (rms : Bool) (eps : Val) (r : GradRow) : List Val :=
  let t := r.map fun t => (t.1.toRat, t.2.1.toRat, t.2.2.toRat)
  let n : Rat := ((t.length : Nat) : Rat)
  let (mu, var) := rowMoments rms (t.map (·.1))
  let a := sumRat (t.map fun t => t.2.1 * t.2.2)
  let b := sumRat (t.map fun t => t.2.1 * t.2.2 * t.1)
  let c2 : Val := match eps with
    | .fin e => if var + e = 0 then .nar else .fin ((b / n - mu * a / n) / (var + e))
    | _ => .nar
  [.fin mu, rstdOf var eps, .fin (if rms then 0 else a / n), c2]

/-- x̂ of the CZ1 sequence (R167). -/
def xHat (x mean rstd : Rat) : Rat := r32 (r32 (x - mean) * rstd)

/-- CZ1 record of a row from the kept MEAN and RSTD (R167). -/
def gradCz1 (rms : Bool) (mean rstd : Rat) (r : GradRow) : List Val :=
  let t := r.map fun t => (t.1.toRat, t.2.1.toRat, t.2.2.toRat)
  let n : Rat := ((t.length : Nat) : Rat)
  let gr := t.map fun t => r32 (t.2.1 * t.2.2)
  let lane := fun (l : List Rat) => let p := lanePair l; r32 (p.1 + p.2)
  let a := lane gr
  let b := lane ((gr.zip t).map fun (g, t) => r32 (g * xHat t.1 mean rstd))
  [.fin mean, .fin rstd, .fin (if rms then 0 else r32 (a / n)), .fin (r32 (b / n))]

def nars (n : Nat) : List Val := List.replicate n .nar

/-- The operands of a gradient, cut by the count word of the first (R103), as rows of x, dy and γ. -/
def State.gradRead (s : State) (f : FaceId) (x dy g : Src) (cnt : Option SpOff) : List GradRow × State :=
  let (cols, s) := s.readPaired f x [dy, g] cnt
  match cols with
  | [a, b, c] => (gradRows (rowShape x (srcFmt x).valuesPer).1 a b c, s)
  | _ => ([], s)

def normGrad1Effect (f : FaceId) (o : NormGrad1Op) (s : State) : State :=
  let (rows, s) := s.gradRead f o.x o.dy o.gamma o.cnt
  let eps := positDecode 32 o.eps.toNat
  match s.bstat f, o.fwd with
  | true, some k =>
    let (kept, s) := s.recFields f k.toNat 8 rows.length [0, 4]
    s.spBytes f o.recs.toNat ((rows.zip kept).flatMap fun (r, m) => match m with
      | [.fin mean, .fin rstd] => (if r.real then gradCz1 o.rms mean rstd r else nars 4).flatMap posit32Bytes
      | _ => (nars 4).flatMap posit32Bytes)
  | _, _ =>
    let recs := rows.map fun r => if r.real then gradNative o.rms eps r else nars 4
    (s.count f (posit32Sats (recs.flatMap id))).spBytes f o.recs.toNat (recs.flatMap fun r => r.flatMap posit32Bytes)

/-- NORM_GRAD1 (R166, R167). -/
def execNormGrad1 (f : FaceId) (o : NormGrad1Op) (s : State) : Result :=
  issue s f (.normGrad1 f o) (firstOf [normGrad1Rule (s.tbl f) (s.bstat f) o, queueRule s f [o.x, o.dy, o.gamma]]) (normGrad1Effect f o)

/-- One row of NORM_GRAD2: dx and dy × x̂; a NaR anywhere in the row or its record makes all of them NaR (R165). -/
def normGrad2Row (cz1 : Bool) (m : List Val) (r : GradRow) : List (Val × Val) :=
  match m with
  | [.fin mean, .fin rstd, .fin c1, .fin c2] =>
    if r.real then r.map fun t =>
      let x := t.1.toRat
      let dy := t.2.1.toRat
      let g := t.2.2.toRat
      if cz1 then
        let xh := xHat x mean rstd
        (.fin (rstd * (r32 (dy * g) - c1 - xh * c2)), .fin (dy * xh))
      else (.fin (rstd * (dy * g - c1 - (x - mean) * c2)), .fin (dy * ((x - mean) * rstd)))
    else r.map fun _ => (.nar, .nar)
  | _ => r.map fun _ => (.nar, .nar)

def normGrad2Effect (f : FaceId) (o : NormGrad2Op) (s : State) : State :=
  let (rows, s) := s.gradRead f o.x o.dy o.gamma o.cnt
  let (recs, s) := s.recFields f o.recs.toNat 16 rows.length [0, 4, 8, 12]
  let out := (recs.zip rows).flatMap fun (m, r) => normGrad2Row (s.bstat f) m r
  let s := (s.put f o.y o.enc none (out.map fun v => RV.of v.1)).s
  match o.dyx with
  | some d => (s.put f d ⟨false, 0⟩ none (out.map fun v => RV.of v.2)).s
  | none => s

/-- NORM_GRAD2 (R166, R167). -/
def execNormGrad2 (f : FaceId) (o : NormGrad2Op) (s : State) : Result :=
  issue s f (.normGrad2 f o) (firstOf [normGrad2Rule (s.tbl f) o, queueRule s f [o.x, o.dy, o.gamma]]) (normGrad2Effect f o)

/-- y and dy of a soft-maximum row under its mask (R168, R388): whether the element is unmasked, and its two values. -/
abbrev SgRow := List (Bool × Val × Val)

/-- `per` values share a mask bit: 32 where y is BP (R388). -/
def sgRows (len per : Nat) (y dy : List Rd) (m : List (Bool × Bool)) : List SgRow :=
  let bits := m.flatMap fun b => List.replicate per b
  groupsOf len y.length ((y.zip (dy.zip bits)).map fun (a, b, mb) => if mb.2 then (mb.1, .nar, .nar) else (mb.1, a.v, b.v))

/-- No input of the row is NaR, masked or not (R165). -/
def SgRow.real (r : SgRow) : Bool := r.all fun t => t.2.1.isReal && t.2.2.isReal

/-- D of a row (R168): in the CZ1 mode a masked element's lane takes nothing. -/
def sgD (cz1 : Bool) (r : SgRow) : Val :=
  if !r.real then .nar
  else
    let ps : List (Option Rat) := r.map fun t => if t.1 then some (t.2.1.toRat * t.2.2.toRat) else none
    if cz1 then
      let step := fun (l : Rat × Rat) (x : Option Rat) => match x with | some x => laneStep l x | none => l
      let root := (laneTree laneCombine (laneRun step (r.length + 1) (List.replicate 256 (0, 0)) (ps.map fun p => p.map r32))).headD (0, 0)
      .fin (root.1 + root.2)
    else .fin (sumRat (ps.filterMap id))

def State.sgRead (s : State) (f : FaceId) (y dy : Src) (mask : Option Stream) (cnt : Option SpOff) : List SgRow × State :=
  let per := (srcFmt y).valuesPer
  let (cols, s) := s.readPaired f y [dy] cnt
  match cols with
  | [a, b] =>
    let (m, s) := s.optMask f mask (ceilDiv a.length per)
    (sgRows (rowShape y per).1 per a b m, s)
  | _ => ([], s)

def smaxGrad1Effect (f : FaceId) (o : SmaxGrad1Op) (s : State) : State :=
  let (rows, s) := s.sgRead f o.yv o.dy o.mask o.cnt
  let ds := rows.map (sgD (s.bstat f))
  (s.count f (posit32Sats ds)).spBytes f o.out.toNat (ds.flatMap posit32Bytes)

/-- SMAX_GRAD1 (R168). -/
def execSmaxGrad1 (f : FaceId) (o : SmaxGrad1Op) (s : State) : Result :=
  issue s f (.smaxGrad1 f o) (firstOf [smaxGrad1Rule (s.tbl f) o, queueRule s f [o.yv, o.dy]]) (smaxGrad1Effect f o)

/-- One row of SMAX_GRAD2 (R168); a NaR input, the scale or D being NaR makes every output of the row NaR, masked or not (R165). -/
def smaxGrad2Row (cz1 : Bool) (c d : Val) (r : SgRow) : List Val :=
  match c, d with
  | .fin c, .fin d =>
    if r.real then r.map fun t =>
      if t.1 then .fin (c * t.2.1.toRat * (if cz1 then r32 (t.2.2.toRat - d) else t.2.2.toRat - d)) else .fin 0
    else r.map fun _ => .nar
  | _, _ => r.map fun _ => .nar

def smaxGrad2Effect (f : FaceId) (o : SmaxGrad2Op) (s : State) : State :=
  let (rows, s) := s.sgRead f o.yv o.dy o.mask o.cnt
  let (ds, s) := s.recFields f o.d.toNat 4 rows.length [0]
  let out := (ds.zip rows).flatMap fun (d, r) =>
    smaxGrad2Row (s.bstat f) (positDecode 32 o.c.toNat) (d.headD .nar) r
  (s.put f o.y o.enc none (out.map RV.of)).s

/-- SMAX_GRAD2 (R168). -/
def execSmaxGrad2 (f : FaceId) (o : SmaxGrad2Op) (s : State) : Result :=
  issue s f (.smaxGrad2 f o) (firstOf [smaxGrad2Rule (s.tbl f) o, queueRule s f [o.yv, o.dy]]) (smaxGrad2Effect f o)

end Sys2Proof.Machine
end

