-- ==== Sys2Proof/Machine/Csr.lean ====
section
/-! DEFINITION. The CSR space of R328: what each register reads, which bits a direct write or a staged write may change, and what
such a write does (R11, R314, R315, R325). A register's value is computed from its one home in State. -/

namespace Sys2Proof.Machine

/-- Bits [hi:lo] set. -/
def fld (hi lo : Nat) : Nat := (2 ^ (hi + 1 - lo) - 1) * 2 ^ lo

/-- A field's value in place. -/
def at_ (v lo : Nat) : Nat := v * 2 ^ lo

/-- The index of an array register at an offset, if the offset is one of its elements. -/
def arrayAt (base stride count off : Nat) : Option Nat :=
  if base ≤ off ∧ off < base + stride * count ∧ (off - base) % stride = 0 then some ((off - base) / stride) else none

/-! ### Codes -/

def RunSt.code : RunSt → Nat
  | .stopped => 0 | .armed => 1 | .running => 2 | .halting => 3

def LinkSt.code : LinkSt → Nat
  | .down => 0 | .training => 1 | .hello => 2 | .up => 3 | .mismatch => 4 | .miswired => 5 | .failed => 6 | .disabled => 7

def State.port (s : State) (p : PortId) : Port := s.fab.ports.getD p.val Port.reset

def State.updPort (s : State) (p : PortId) (g : Port → Port) : State :=
  { s with fab := { s.fab with ports := lmod g s.fab.ports p.val } }

/-- A list of flags as bits. -/
def bitsOf (l : List Bool) : Nat := ((List.range l.length).zip l).foldl (fun n (i, b) => n + b2n b * 2 ^ i) 0

/-! ### Register values -/

/-- AID (R230): silicon, running firmware and COMPAT. -/
def State.aid (s : State) : Nat :=
  let (revs, round) := match s.runImage with | some x => (x.revs.toNat, x.round.toNat) | none => (0, 0)
  at_ 2 60 + at_ s.flash.stepping.toNat 56 + at_ (bits revs 47 32) 40 + at_ (bits revs 63 48) 24 + at_ round 16 + b2n s.cfg.compat

/-- READY_MAP (R330). -/
def State.readyMap (s : State) : Nat :=
  let p := s.pwr
  at_ 2 60 + at_ (b2n s.fab.locked) 36 + at_ (bitsOf (s.fab.ports.map fun x => x.state == .up)) 30
    + at_ (p.trained &&& s.mem.hbmLive).toNat 14 + at_ p.dies.toNat 6 + at_ (b2n p.host) 5 + at_ (b2n p.derrick) 4
    + at_ (b2n p.hub) 3 + at_ (b2n p.main) 2 + at_ (b2n p.weighbridge) 1 + b2n p.standby

/-- RUN_STATE (R218). -/
def State.runState (s : State) : Nat :=
  at_ (s.tk.haltTick.toNat % 2 ^ 32) 32 + at_ 2 20 + at_ (b2n s.tk.remote) 7 + at_ s.tk.cause.toNat 3 + s.tk.run.code

/-- LAUNCH_AT (R213). -/
def State.launchAtReg (s : State) : Nat := match s.sched.launch with | some l => l.at_ | none => s.tk.launchAt.toNat

/-- PIT_INFO (R280). -/
def State.pitInfo (s : State) : Nat :=
  let p := s.pit
  at_ 2 60 + at_ p.id.toNat 48 + at_ p.corner.toNat 33 + at_ p.sx.toNat 28 + at_ p.sy.toNat 23 + at_ p.sz.toNat 18 + p.rank.toNat

/-- FAB_ID (R268). -/
def State.fabId (s : State) : Nat :=
  at_ 2 60 + at_ s.fab.dimZ.toNat 26 + at_ s.fab.dimY.toNat 21 + at_ s.fab.dimX.toNat 16 + at_ (b2n s.fab.valid) 15 + s.fab.faddr.toNat

/-- FACE_STATE[f] (R330). -/
def Face.stateReg (x : Face) : Nat := at_ 2 60 + at_ x.cause.toNat 8 + at_ (b2n x.retirePend) 3 + x.state.code

/-- FACE_GEOM[f] (R93). -/
def Face.geomReg (x : Face) : Nat := at_ 2 48 + at_ x.pendingMap.toNat 32 + at_ x.width 16 + x.bypassMap.toNat

/-- SLACK_MIN[f] (R226). -/
def Face.slackReg (x : Face) : Nat := at_ 2 48 + at_ x.maxOver.toNat 24 + x.minSlack.toNat

def Bank.slotBits (b : Bank) : Nat := bitsOf (b.slots.map Option.isSome)

/-- FN_BANK[f] (R146). -/
def FnBanks.reg (b : FnBanks) : Nat :=
  at_ (match b.swapAt with | some t => t % 2 ^ 32 | none => 0) 32 + at_ 2 24 + at_ b.shadow.slotBits 16 + at_ b.live.slotBits 8
    + at_ (b2n b.loadPending) 5 + at_ (b2n b.swapAt.isSome) 4 + at_ (b2n b.shadow.cz1) 3 + at_ (b2n b.live.cz1) 2
    + at_ (b2n b.shadowValid) 1 + b2n b.active

/-- LINK_STATE[p] (R286). -/
def Port.stateReg (x : Port) : Nat :=
  at_ 2 60 + at_ x.nbrFaddr.toNat 30 + at_ (b2n x.nbrValid) 29 + at_ x.nbrPort.toNat 26 + at_ x.nbrVer.toNat 16
    + at_ x.linkVer.toNat 8 + at_ (b2n x.adminDown) 4 + x.state.code

/-- HBM_MAP (R257). -/
def Mem.mapReg (m : Mem) : Nat :=
  at_ 2 60 + at_ m.hbmPending.toNat 32 + at_ m.hbmLive.toNat 16 + at_ (capGib m.mode m.hbmLive) 6 + at_ (b2n m.modeNext) 1 + b2n m.mode

/-- TIME_STATE (R285). -/
def State.timeReg (s : State) : Nat :=
  let f := s.fab
  at_ 2 60 + at_ f.offset.toNat 16 + at_ f.depth.toNat 10 + at_ (match f.parent with | some p => p.val | none => 7) 7
    + at_ (b2n f.masterAct) 3 + at_ (b2n f.master) 2 + at_ (b2n f.holdover) 1 + b2n f.locked

/-- The words of NAR_ORIGIN (R307). -/
def narWords (o : Option NarOrigin) : Nat × Nat :=
  match o with
  | some x => (at_ 1 63 + at_ (x.kind % 8) 60 + at_ x.bucket.toNat 48 + x.pass.toNat,
      at_ x.faddr.toNat 49 + at_ (x.elem % 32) 44 + at_ (x.unit % 2 ^ 21) 23 + at_ 2 20)
  | none => (0, at_ 2 20)

/-- QCFG[q] at byte 0x18 (R315). -/
def Queue.ctlReg (x : Queue) : Nat :=
  at_ 2 60 + at_ x.pitLock.toNat 32 + at_ x.msix.toNat 24 + at_ x.sqLog.toNat 20 + at_ x.cqLog.toNat 16 + at_ (b2n x.error) 1 + b2n x.enable

def Queue.word (x : Queue) : Nat → Nat
  | 0 => x.sqBase.toNat
  | 1 => x.cqBase.toNat
  | 2 => x.shadow.toNat
  | 3 => x.ctlReg
  | 4 => at_ x.cqTail.toNat 32 + x.sqHead.toNat
  | _ => 0

/-- Two 4-byte registers that share 8 bytes. -/
def pair32 (lo hi : BitVec 32) : Nat := lo.toNat + at_ hi.toNat 32

/-- The module's single registers, 8 bytes at offset `off` (R328). -/
def State.csrSingle (s : State) (off : Nat) : Nat :=
  match off with
  | 0x0000 => at_ 2 60 + at_ 2 56 + at_ s.flash.grade.toNat 52 + at_ s.flash.boardRev.toNat 32
  | 0x0008 => leAt s.flash.serial 0 8
  | 0x0010 => leAt s.flash.serial 8 8
  | 0x0018 => leAt s.flash.part 0 8
  | 0x0020 => s.aid
  | 0x0028 => s.readyMap
  | 0x0030 => s.runState
  | 0x0038 => s.pitInfo
  | 0x0040 => s.fabId
  | 0x0048 => s.tk.frameCount.toNat
  | 0x0050 => s.tk.tickCount.toNat
  | 0x0058 => at_ 2 28 + at_ s.cfg.tpCur.toNat 12 + s.cfg.tpNext.toNat
  | 0x0060 => s.tk.epochId.toNat
  | 0x0068 => s.launchAtReg
  | 0x0080 => at_ 2 28 + b2n s.cfg.fast
  | 0x0088 => pair32 s.tk.odcModule s.tk.odcPit
  | 0x0090 => at_ s.tk.pacerTick.toNat 32 + at_ s.tk.pacerFaddr.toNat 17 + at_ s.tk.pacerFace.toNat 10 + s.tk.pacerExt.toNat
  | 0x0098 => at_ 2 28 + at_ s.cfg.stallLimit.toNat 16 + at_ s.tk.notice.toNat 8 + b2n s.cfg.haltPolicy
  | 0x00C0 => at_ 2 28 + at_ s.cfg.clockNext.toNat 4 + s.cfg.clockCur.toNat
  | 0x00C8 => at_ 2 28 + at_ s.cfg.powerNext.toNat 4 + s.cfg.powerCur.toNat
  | 0x00D0 => at_ (b2n s.cfg.keeperForced) 1 + b2n (s.cfg.keeperEn || s.cfg.keeperForced)
  | 0x0100 => at_ 2 60 + at_ s.twin.partnerPit.toNat 32 + at_ s.twin.partner.toNat 16 + at_ s.twin.lag.toNat 4 + b2n s.twin.paired
  | 0x0108 => s.twin.firstTick.toNat
  | 0x0110 => at_ s.twin.kind.toNat 62 + at_ s.twin.face.toNat 55 + at_ s.twin.addrLo.toNat 27 + s.twin.addrHi.toNat
  | 0x0140 => at_ 2 28 + at_ s.strm.slotK.toNat 16 + at_ (b2n s.strm.serve) 1
  | 0x01C0 => s.mem.mapReg
  | 0x0200 => pair32 (match s.fab.route with | some r => r.id | none => 0) (match s.fab.staged with | some r => r.id | none => 0)
  | 0x0208 => s.timeReg
  | 0x0210 => at_ 2 28 + at_ s.cfg.c1Min.toNat 8 + s.cfg.c3Min.toNat
  | 0x0480 => at_ 2 60 + at_ (b2n s.errs.lostFatal) 33 + at_ (b2n s.errs.storm) 32 + s.errs.lost.toNat
  | 0x04C0 => (narWords s.coll.origin).1
  | 0x04C8 => (narWords s.coll.origin).2
  | 0x0800 => pair32 s.cnt.infIn s.cnt.nanIn
  | 0x0808 => pair32 s.cnt.convRange s.cnt.convNar
  | 0x0810 => pair32 s.cnt.bpBad s.cnt.scaleClamp
  | 0x0820 => pair32 s.cnt.spallFull s.cnt.spallMiss
  | 0x0830 => pair32 s.cnt.fnFlush s.cnt.fnDomain
  | 0x0838 => pair32 s.cnt.fnNotable s.cnt.fnEmpty
  | 0x0850 => pair32 s.coll.esc s.coll.fallback
  | 0x0858 => s.coll.quar.toNat
  | 0x0860 => pair32 s.mem.ce s.mem.ue
  | 0x0868 => s.mem.poisonRd.toNat
  | 0x0870 => pair32 s.fab.pitDrop s.fab.unreach
  | 0x0878 => pair32 s.fab.hopDrop s.fab.malformed
  | 0x0880 => pair32 s.fab.c0Late s.fab.c0Over
  | 0x0890 => s.cfg.wrIgn.toNat
  | 0x0C00 => at_ 2 60 + s.cfg.traceCtl.toNat
  | 0x0C08 => at_ s.cfg.traceBase.toNat 20 + s.cfg.traceSize.toNat
  | 0x0C10 => s.cfg.traceHead.toNat
  | 0x0D00 => s.cfg.hostWin.toNat
  | _ => 0

def State.portAt (s : State) (i : Nat) : Port := s.fab.ports.getD i Port.reset
def State.faceAt (s : State) (i : Nat) : Face := s.faces.getD i Face.reset

/-- The 8 bytes at an offset that is a multiple of 8; an offset outside the map reads 0 (R328). -/
def State.csr64 (s : State) (off : Nat) : Nat :=
  if off < 0x0140 then s.csrSingle off
  else if 0x4000 ≤ off then
    (match arrayAt 0x4000 8 512 off with
      | some k => (s.host.queues.getD (k / 8) (Queue.reset (k / 8))).word (k % 8)
      | none => 0)
  else if 0x1000 ≤ off then
    let f := (off - 0x1000) % 0x400 / 8
    if off % 8 ≠ 0 ∨ 96 ≤ f then 0
    else match (off - 0x1000) / 0x400 with
      | 0 => (s.faceAt f).stateReg
      | 1 => (s.faceAt f).geomReg
      | 2 => (s.faceAt f).slackReg
      | 3 => (s.faceAt f).units.banks.reg
      | _ => 0
  else
    match arrayAt 0x0148 8 8 off, arrayAt 0x0400 8 8 off, arrayAt 0x0440 8 8 off, arrayAt 0x0A00 8 6 off, arrayAt 0x0A40 8 3 off,
      arrayAt 0x0A60 8 3 off with
    | some d, _, _, _, _, _ => let x := s.strm.spill.getD d (0, 0); at_ x.1.toNat 40 + at_ x.2.toNat 16 + 2
    | _, some k, _, _, _, _ => leAt (optBytes s.errs.primary) (8 * k) 8
    | _, _, some k, _, _, _ => leAt (optBytes s.errs.secondary) (8 * k) 8
    | _, _, _, some p, _, _ => (s.portAt p).stateReg
    | _, _, _, _, some k, _ => pair32 (s.portAt (2 * k)).retry (s.portAt (2 * k + 1)).retry
    | _, _, _, _, _, some k => pair32 (s.portAt (2 * k)).downs (s.portAt (2 * k + 1)).downs
    | _, _, _, _, _, _ => s.csrSingle off

/-! ### Access codes -/

/-- The bits of 8 bytes of the map: where a register lies, and the LK, ST, reserved, RW and live ones. The rest are RO. -/
structure CsrBits where
  map  : Nat
  lk   : Nat
  st   : Nat
  rsvd : Nat
  rw   : Nat
  live : Nat
  deriving DecidableEq, Repr

def m32 : Nat := 2 ^ 32 - 1
def m64 : Nat := 2 ^ 64 - 1
def roBits (map rsvd : Nat) : CsrBits := ⟨map, 0, 0, rsvd, 0, 0⟩
def csrNone : CsrBits := roBits 0 0

def csrBitsSingle (off : Nat) : CsrBits :=
  match off with
  | 0x0000 => roBits m64 (fld 51 48 + fld 31 0)
  | 0x0008 | 0x0010 | 0x0018 | 0x0048 | 0x0050 | 0x0068 | 0x0088 | 0x0090 | 0x0108 | 0x0200 | 0x0C10 => roBits m64 0
  | 0x0020 => roBits m64 (fld 15 1)
  | 0x0028 => roBits m64 (fld 59 37)
  | 0x0030 => roBits m64 (fld 31 24 + fld 19 8 + fld 2 2)
  | 0x0038 => roBits m64 (fld 17 15)
  | 0x0040 => ⟨m64, 0, fld 30 0, fld 59 31, 0, 0⟩
  | 0x0058 => ⟨m32, fld 11 0, 0, fld 27 24, 0, 0⟩
  | 0x0060 => roBits m32 0
  | 0x0080 => ⟨m32, fld 0 0, 0, fld 27 1, 0, 0⟩
  | 0x0098 => ⟨m32, fld 23 16 + fld 0 0, 0, fld 27 25 + fld 7 1, 0, fld 24 24⟩
  | 0x00C0 | 0x00C8 => ⟨m32, fld 5 4, 0, fld 27 6 + fld 3 2, 0, 0⟩
  | 0x00D0 => ⟨m32, fld 0 0, 0, fld 31 2, 0, 0⟩
  | 0x0100 => ⟨m64, fld 7 4, 0, fld 59 44 + fld 31 31 + fld 15 8 + fld 3 1, 0, 0⟩
  | 0x0110 => roBits m64 (fld 54 54)
  | 0x0140 => ⟨m32, fld 20 16 + fld 1 1, 0, fld 27 21 + fld 15 2 + fld 0 0, 0, 0⟩
  | 0x01C0 => ⟨m64, fld 1 1, 0, fld 59 48 + fld 5 2, 0, 0⟩
  | 0x0208 => ⟨m64, 0, fld 2 2, fld 59 32 + fld 6 4, 0, 0⟩
  | 0x0210 => ⟨m32, fld 15 0, 0, fld 27 16, 0, 0⟩
  | 0x0480 => roBits m64 (fld 59 34)
  | 0x04C0 => ⟨m64, 0, fld 32 32, fld 47 33, 0, 0⟩
  | 0x04C8 => roBits m64 (fld 19 0)
  | 0x0800 | 0x0808 | 0x0810 | 0x0820 | 0x0830 | 0x0838 | 0x0850 | 0x0860 | 0x0870 | 0x0878 | 0x0880 => roBits m64 0
  | 0x0818 | 0x0828 | 0x0840 => ⟨m32, 0, 0, fld 31 1, 0, fld 0 0⟩
  | 0x0858 | 0x0868 | 0x0890 => roBits m32 0
  | 0x0C00 => ⟨m64, 0, 0, fld 59 4, 0, fld 3 0⟩
  | 0x0C08 => ⟨m64, fld 40 20 + fld 15 0, 0, fld 63 41 + fld 19 16, 0, 0⟩
  | 0x0D00 => ⟨m64, 0, 0, fld 63 11, fld 10 0, 0⟩
  | _ => csrNone

/-- The bits of QCFG[q] (R315). -/
def csrBitsQueue : Nat → CsrBits
  | 0 | 1 | 2 => ⟨m64, 0, 0, 0, m64, 0⟩
  | 3 => ⟨m64, 0, 0, fld 59 44 + fld 15 2, fld 43 16 + fld 0 0, 0⟩
  | 4 => roBits m64 0
  | _ => roBits m64 m64

/-- The bits at an offset that is a multiple of 8 (R328). -/
def csrBits (off : Nat) : CsrBits :=
  if off % 8 ≠ 0 then csrNone
  else if 0x4000 ≤ off then (if off < 0x5000 then csrBitsQueue ((off - 0x4000) / 8 % 8) else csrNone)
  else if 0x1000 ≤ off then
    if 96 ≤ (off - 0x1000) % 0x400 / 8 then csrNone
    else match (off - 0x1000) / 0x400 with
      | 0 => roBits m64 (fld 59 16 + fld 7 4)
      | 1 => roBits m64 (fld 63 52 + fld 31 24)
      | 2 => roBits m64 (fld 63 52)
      | 3 => roBits m64 (fld 31 28 + fld 7 6)
      | _ => csrNone
  else if (arrayAt 0x0148 8 8 off).isSome then ⟨m64, fld 63 16, 0, fld 15 4, 0, 0⟩
  else if (arrayAt 0x0400 8 16 off).isSome then roBits m64 0
  else if (arrayAt 0x0A00 8 6 off).isSome then ⟨m64, 0, fld 4 4, fld 59 45 + fld 25 24 + fld 7 5 + fld 3 3, 0, 0⟩
  else if (arrayAt 0x0A40 8 3 off).isSome || (arrayAt 0x0A60 8 3 off).isSome then roBits m64 0
  else csrBitsSingle off

/-- Registers of the standby domain, marked S in R328. -/
def csrStandby (off : Nat) : Bool := decide (off < 0x20) || off / 8 == 5 || (decide (0x400 ≤ off) && decide (off < 0x488))

/-! ### Committed values (R214 step 3, R325) -/

/-- `v` under `mask` over `old`. -/
def maskIn (old v mask : Nat) : Nat := old - (old &&& mask) + (v &&& mask)

/-- Write the staged fields of the 8 bytes at `off`; `v` is the whole value they then hold, but for the stored values that a
field's table states (R189, R226, R276). -/
def State.csrCommit (s : State) (off v : Nat) : State :=
  let g := fun hi lo => bits v hi lo
  if (arrayAt 0x0148 8 8 off).isSome then
    { s with strm := { s.strm with
        spill := lmod (fun _ => (BitVec.ofNat 24 (g 63 40), BitVec.ofNat 24 (g 39 16))) s.strm.spill ((off - 0x148) / 8) } }
  else if (arrayAt 0x0A00 8 6 off).isSome then
    { s with fab := { s.fab with ports := lmod (fun p => { p with adminDown := bit v 4 }) s.fab.ports ((off - 0xA00) / 8) } }
  else match off with
    | 0x0040 => { s with fab := { s.fab with
        dimZ := BitVec.ofNat 5 (g 30 26), dimY := BitVec.ofNat 5 (g 25 21), dimX := BitVec.ofNat 5 (g 20 16)
        valid := bit v 15, faddr := BitVec.ofNat 15 (g 14 0) } }
    | 0x0058 => { s with cfg := { s.cfg with tpNext := BitVec.ofNat 12 (g 11 0) } }
    | 0x0080 => { s with cfg := { s.cfg with fast := bit v 0 } }
    | 0x0098 => { s with cfg := { s.cfg with
        stallLimit := BitVec.ofNat 8 (if g 23 16 = 0 then 1 else g 23 16), haltPolicy := bit v 0 } }
    | 0x00C0 => { s with cfg := { s.cfg with clockNext := BitVec.ofNat 2 (g 5 4) } }
    | 0x00C8 => { s with cfg := { s.cfg with powerNext := BitVec.ofNat 2 (g 5 4) } }
    | 0x00D0 => { s with cfg := { s.cfg with keeperEn := bit v 0 } }
    | 0x0100 => { s with twin := { s.twin with lag := BitVec.ofNat 4 (g 7 4) } }
    | 0x0140 => { s with strm := { s.strm with slotK := BitVec.ofNat 5 (Nat.min 16 (g 20 16)), serve := bit v 1 } }
    | 0x01C0 => { s with mem := { s.mem with modeNext := bit v 1 } }
    | 0x0208 => { s with fab := { s.fab with master := bit v 2 } }
    | 0x0210 => { s with cfg := { s.cfg with
        c1Min := BitVec.ofNat 8 (Nat.min 200 (g 15 8)), c3Min := BitVec.ofNat 8 (Nat.min 16 (g 7 0)) } }
    | 0x04C0 => if bit v 32 then { s with coll := { s.coll with origin := none } } else s
    | 0x0C08 => { s with cfg := { s.cfg with traceBase := BitVec.ofNat 21 (g 40 20), traceSize := BitVec.ofNat 16 (g 15 0) } }
    | _ => s

/-- One committed entry. -/
def State.applyEntry (s : State) (e : StageEntry) : State :=
  let b := csrBits e.off
  s.csrCommit e.off (maskIn (s.csr64 e.off) e.value.toNat (e.mask.toNat &&& (b.lk ||| b.st)))

/-! ### The staging store (R325) -/

/-- The entry for an offset in a store kept in order of offset. -/
def stagedAt (l : List StageEntry) (off : Nat) : StageEntry := (l.find? fun e => e.off == off).getD ⟨off, 0, 0⟩

/-- A later stage of a bit replaces an earlier one; reserved bits are left out (R5, R325). -/
def stageOne (l : List StageEntry) (e : StageEntry) : List StageEntry :=
  let b := csrBits e.off
  let m := e.mask.toNat &&& (b.lk ||| b.st)
  let old := stagedAt l e.off
  let new : StageEntry := ⟨e.off, BitVec.ofNat 64 (maskIn old.value.toNat e.value.toNat m), BitVec.ofNat 64 (old.mask.toNat ||| m)⟩
  if m = 0 then l
  else (l.filter fun x => decide (x.off < e.off)) ++ new :: l.filter fun x => decide (e.off < x.off)

/-- The value of 8 bytes as the staged entries would leave them. -/
def State.csrStaged (s : State) (l : List StageEntry) (off : Nat) : Nat :=
  let e := stagedAt l off
  maskIn (s.csr64 off) e.value.toNat e.mask.toNat

/-- The value range of the fields that a mask touches (R213, R237, R268, R331); fields with a stored value have none. -/
def rangeFits (off v mask : Nat) : Bool :=
  let touched := fun m => decide (mask &&& m ≠ 0)
  match off with
  | 0x0058 => !touched (fld 11 0) || (decide (4 ≤ bits v 11 0) && decide (bits v 11 0 ≤ 2048))
  | 0x00C0 => !touched (fld 5 4) || decide (bits v 5 4 ≠ 0)
  | 0x0100 => !touched (fld 7 4) || decide (bits v 7 4 ≠ 0)
  | 0x0040 => !touched (fld 30 26) || decide (bits v 30 26 ≤ 23)
  | _ => true

/-- An entry covers an LK bit. -/
def StageEntry.lk (e : StageEntry) : Bool := decide (e.mask.toNat &&& (csrBits e.off).lk ≠ 0)

/-- An entry covers STREAM_CFG.SLOT_K (R189). -/
def StageEntry.slotK (e : StageEntry) : Bool := e.off == 0x0140 && decide (e.mask.toNat &&& fld 20 16 ≠ 0)

/-! ### Live fields and direct writes (R48, R216, R314, R315) -/

def State.clearConv (s : State) : State :=
  { s with cnt := { s.cnt with infIn := 0, nanIn := 0, convRange := 0, convNar := 0, bpBad := 0, scaleClamp := 0 } }

def State.clearSpall (s : State) : State := { s with cnt := { s.cnt with spallFull := 0, spallMiss := 0 } }

def State.clearFn (s : State) : State := { s with cnt := { s.cnt with fnFlush := 0, fnDomain := 0, fnNotable := 0, fnEmpty := 0 } }

/-- Every SLACK_MIN returns to its reset value (R226). -/
def State.clearSlack (s : State) : State := { s with faces := s.faces.map fun x => { x with maxOver := 0, minSlack := 0xFFFFFF } }

def State.setTrace (s : State) (v : Nat) : State := { s with cfg := { s.cfg with traceCtl := BitVec.ofNat 4 v } }

/-- SQ_LOG and CQ_LOG store 1 to 12 (R315). -/
def logStored (v : Nat) : BitVec 4 := BitVec.ofNat 4 (if v = 0 then 1 else if 12 < v then 12 else v)

/-- Writing 1 to ENABLE where it was 0 clears ERROR. -/
def Queue.setEnable (x : Queue) (e : Bool) : Queue := { x with enable := e, error := x.error && !(e && !x.enable) }

/-- A direct write of word k of QCFG[q]: base addresses and PIT_LOCK are ignored while ENABLE is 1. -/
def Queue.write (x : Queue) (k v : Nat) : Queue :=
  match k with
  | 0 => if x.enable then x else { x with sqBase := BitVec.ofNat 64 v }
  | 1 => if x.enable then x else { x with cqBase := BitVec.ofNat 64 v }
  | 2 => if x.enable then x else { x with shadow := BitVec.ofNat 64 v }
  | 3 =>
    let y := { x with
      msix := BitVec.ofNat 8 (bits v 31 24), sqLog := logStored (bits v 23 20), cqLog := logStored (bits v 19 16)
      pitLock := if x.enable then x.pitLock else BitVec.ofNat 12 (bits v 43 32) }
    y.setEnable (bit v 0)
  | _ => x

/-- A direct write of `v` to the bits of `mask` at the 8 bytes `off` (R314). -/
def State.csrDirect (s : State) (off v mask : Nat) : State :=
  let b := csrBits off
  let s := if (b.lk ||| b.st) &&& mask = 0 then s else { s with cfg := { s.cfg with wrIgn := satInc 32 s.cfg.wrIgn } }
  let lv := v &&& mask &&& b.live
  match off with
  | 0x0818 => if lv = 0 then s else s.clearConv
  | 0x0828 => if lv = 0 then s else s.clearSpall
  | 0x0840 => if lv = 0 then s else s.clearFn
  | 0x0098 => if lv = 0 then s else s.clearSlack
  | 0x0C00 => s.setTrace (maskIn s.cfg.traceCtl.toNat v (mask &&& b.live))
  | 0x0D00 => { s with cfg := { s.cfg with hostWin := BitVec.ofNat 11 (maskIn s.cfg.hostWin.toNat v (mask &&& b.rw)) } }
  | _ =>
    if 0x4000 ≤ off ∧ off < 0x5000 ∧ mask &&& b.rw ≠ 0 then
      let q := (off - 0x4000) / 64
      let k := off / 8 % 8
      let qs := lmod (fun x => x.write k (maskIn (x.word k) v (mask &&& b.rw))) s.host.queues q
      { s with host := { s.host with queues := qs } }
    else s

/-- Bytes of a CSR range as CFG_READ returns them (R324). -/
def State.csrBytes (s : State) (l : List StageEntry) (off words : Nat) : List Byte :=
  (List.range words).flatMap fun i => leBytes 8 (s.csrStaged l (off + 8 * i))

end Sys2Proof.Machine
end

