-- ==== Sys2Proof/Machine/Gangsaw.lean ====
section
/-! DEFINITION. The Gangsaw's affine scan, its carry store and its status word (R171 to R181). -/

namespace Sys2Proof.Machine

/-! ### One channel of a chunk (R174) -/

/-- A composed map of a channel: the decay product and the offsets of the group, or NaR (R177). -/
abbrev GsMap := Option (Rat × List Rat)

/-- Roundings outside the range among exact values (R181 SAT_COUNT). -/
def satCount (l : List Rat) : Nat := (l.filter (positSat 32)).length

/-- compose of R174, and its saturations. -/
def gsCompose (p q : GsMap) : GsMap × Nat :=
  match p, q with
  | some (a, b), some (a2, b2) =>
    let xa := a * a2
    let xb := (b.zip b2).map fun (u, v) => a * v + u
    (some (r32 xa, xb.map r32), satCount (xa :: xb))
  | _, _ => (none, 0)

/-- seg(t) for t = 0 to L − 1. -/
def gsSegs (marks : List Bool) : List Nat :=
  (((List.range marks.length).zip marks).foldl (fun (acc : List Nat × Nat) (t, m) =>
    let cur := if m then t else acc.2
    (acc.1 ++ [cur], cur)) ([], 0)).1

/-- One level of the tree: every read sees the values from before it. -/
def gsLevel (segs : List Nat) (d : Nat) (ps : List GsMap × Nat) : List GsMap × Nat :=
  let q := ps.1
  let new := ((List.range q.length).zip q).map fun (t, p) =>
    if d ≤ t ∧ segs.getD t 0 ≤ t - d then gsCompose p (q.getD (t - d) none) else (p, 0)
  (new.map (·.1), new.foldl (fun n x => n + x.2) ps.2)

/-- All prefixes: levels d = 1, 2, 4, … below L. -/
def gsTree (segs : List Nat) (ps : List GsMap × Nat) : List GsMap × Nat :=
  (List.range 8).foldl (fun ps i => if 2 ^ i < segs.length then gsLevel segs (2 ^ i) ps else ps) ps

/-- A step's inputs for one channel: decay, input, input weights, readout weights. -/
structure GsIn where
  a : Val
  x : Val
  b : List Val
  c : List Val
  deriving DecidableEq, Repr

def GsIn.real (i : GsIn) : Bool := i.a.isReal && i.x.isReal && i.b.all Val.isReal && i.c.all Val.isReal

/-- A leaf: NaR where any of its inputs is (R177). -/
def gsLeaf (i : GsIn) : GsMap × Nat :=
  if i.real then
    let u := i.b.map fun b => b.toRat * i.x.toRat
    (some (i.a.toRat, u.map r32), satCount u)
  else (none, 0)

/-- The states of one channel: step, then element; and the saturations. -/
def gsStates (marks : List Bool) (carry init : List Val) (ins : List GsIn) : List (List Val) × Nat :=
  let leaves := ins.map gsLeaf
  let (ps, n) := gsTree (gsSegs marks) (leaves.map (·.1), leaves.foldl (fun n x => n + x.2) 0)
  let out : List (List Val × Nat) := ((List.range ps.length).zip ps).map fun (t, p) =>
    let base := if (marks.take (t + 1)).any id then init else carry
    match p with
    | none => (base.map fun _ => Val.nar, 0)
    | some (aa, bb) =>
      let es : List (Val × Nat) := (bb.zip base).map fun ((b, s) : Rat × Val) => match s with
        | .fin s => (Val.fin (r32 (aa * s + b)), b2n (positSat 32 (aa * s + b)))
        | _ => (Val.nar, 0)
      (es.map (·.1), es.foldl (fun n x => n + x.2) 0)
  (out.map (·.1), out.foldl (fun n x => n + x.2) n)

/-! ### The carry store (R180) -/

/-- `n` elements from index `c0`; an element of an uncorrectable word reads as NaR. -/
def FaceUnits.carryRead (u : FaceUnits) (c0 n : Nat) : List Val :=
  (rangeFrom c0 n).map fun i =>
    if u.carryUe.contains (i / 2) || u.carrySeen.contains (i / 2) then .nar
    else positDecode 32 (sget (0 : BitVec 32) u.carry i).toNat

/-- Words of a read that hold an error no read has found yet. -/
def carryNew (u : FaceUnits) (c0 n : Nat) : List Nat := u.carryUe.filter fun w => decide (c0 < 2 * w + 2 ∧ 2 * w < c0 + n)

def State.carryLoad (s : State) (f : FaceId) (c0 n : Nat) : List Val × State :=
  let u := (s.face f).units
  let new := carryNew u c0 n
  let vs := u.carryRead c0 n
  if new.isEmpty then (vs, s)
  else (vs, (s.updUnits f fun u => { u with carryUe := u.carryUe.filter fun w => !new.contains w, carrySeen := u.carrySeen ++ new }).noteStore
    f 3 new.length)

/-- A write of elements; a whole word written loses its error (R248). -/
def FaceUnits.carryWrite (u : FaceUnits) (c0 : Nat) (vs : List Val) : FaceUnits :=
  let keep := fun w => !decide (c0 ≤ 2 * w ∧ 2 * w + 2 ≤ c0 + vs.length)
  { u with
    carry := ((rangeFrom c0 vs.length).zip vs).foldl (fun m (i, v) => sset (0 : BitVec 32) m i (BitVec.ofNat 32 (positEncode 32 v))) u.carry
    carryUe := u.carryUe.filter keep
    carrySeen := u.carrySeen.filter keep }

/-! ### GS_SCAN (R179) -/

/-- Posit32 elements at a scratchpad offset; an element of a marked word is NaR. -/
def State.spPosits (s : State) (f : FaceId) (off n : Nat) : List Val × State :=
  ((List.range n).map fun i => s.spPosit32 f (off + 4 * i), s.noteReads (.face f.val) [(spAddr f off, 4 * n)])

/-- Inputs of channel c at step t by the stream indices of R179. -/
def gsInputs (o : GsScanOp) (a x b c : Array Val) (t ch : Nat) : GsIn :=
  let i := t * o.ch + ch
  { a := a.getD i .nar, x := x.getD i .nar
    b := (List.range o.g).map fun e => b.getD (i * o.g + e) .nar
    c := (List.range o.g).map fun e => c.getD (i * o.g + e) .nar }

/-- Outputs in the order of stream Y: sums over SPAN channels and the group, exact. -/
def gsOutputs (o : GsScanOp) (ins : Nat → Nat → GsIn) (states : Array (Array (List Val))) : List Val :=
  (List.range o.len).flatMap fun t => (List.range (o.ch / o.span)).map fun y =>
    (List.range o.span).foldl (fun v k =>
      let ch := y * o.span + k
      ((ins t ch).c.zip ((states.getD ch #[]).getD t [])).foldl (fun v (c, s) => Val.add v (Val.mul c s)) v) (.fin 0)

/-- The effect of a scan. FIRST_NAR_CH is the first of the SPAN channels that the first NaR output sums (R179, R181, log entry 75). -/
def gsScanEffect (f : FaceId) (o : GsScanOp) (s : State) : State :=
  let n := o.ch * o.g
  let vals := fun (l : List Rd) => (l.map (·.v)).toArray
  let (a, s) := s.readStream f o.a none
  let (x, s) := s.readStream f o.x none
  let (b, s) := s.readStream f o.b none
  let (c, s) := s.readStream f o.c none
  let (map_, s) := if o.rmap = 0 then (0, s) else let (v, _, s) := s.spLoad f o.rmap.toNat 32; (v, s)
  let (init, s) := if o.init = 0 then (List.replicate n (.fin 0), s) else s.spPosits f o.init.toNat n
  let (carry, s) := match o.cin with
    | some a => s.spPosits f a.toNat n
    | none => s.carryLoad f (o.coff / 4) n
  let marks := (List.range o.len).map (bit map_)
  let ins := gsInputs o (vals a) (vals x) (vals b) (vals c)
  let chans := (List.range o.ch).map fun ch =>
    gsStates marks ((carry.drop (ch * o.g)).take o.g) ((init.drop (ch * o.g)).take o.g)
      ((List.range o.len).map fun t => ins t ch)
  let out := gsOutputs o ins ((chans.map fun x => x.1.toArray).toArray)
  let sats := chans.foldl (fun k x => k + x.2) 0
  let last := chans.flatMap fun x => x.1.getLastD []
  let s := (s.put f o.y ⟨false, 0⟩ none (out.map RV.of)).s
  let s := s.updUnits f fun u => u.carryWrite (o.coff / 4) last
  let s := match o.cout with
    | some a => s.spBytes f a.toNat (last.flatMap posit32Bytes)
    | none => s
  let bad := ((List.range out.length).zip out).filter fun x => !x.2.isReal
  let first := (bad.headD (0, .nar)).1
  let per := o.ch / o.span
  s.spBytes f o.ssw.toNat (tswBytes (sswWord0 bad.length (Nat.min sats (2 ^ 32 - 1))) (sswWord1 (first % per * o.span) (first / per)))

/-- GS_SCAN (R174 to R181). -/
def execGsScan (f : FaceId) (o : GsScanOp) (s : State) : Result := issue s f (.gsScan f o) (gsScanRule (s.tbl f) o) (gsScanEffect f o)

end Sys2Proof.Machine
end

