-- ==== Sys2Proof/Machine/Derrick.lean ====
section
/-! DEFINITION. The Derrick's reading of a command packet: the opcode table (R324), the packet's bytes and CRC (R318), and the
checks of R320 up to the opcode's own rules, with the refusal payloads of R320 and R322. -/

namespace Sys2Proof.Machine

/-! ### The opcode table (R322 to R324) -/

/-- Scope: the module, its Pit, or the rule of PIT_CREATE. -/
inductive Scope where
  | module | pit | create
  deriving DecidableEq, Repr

/-- Target kinds of R323; `fn` is BIST_RUN's F or N. -/
inductive TKind where
  | n | f | f1 | fn | s | d | b
  deriving DecidableEq, Repr

/-- Meanings of EXEC_AT. -/
inductive AtKind where
  | zero | act | accept
  deriving DecidableEq, Repr

structure OpInfo where
  code  : Nat
  scope : Scope
  tgt   : TKind
  at_   : AtKind
  lo    : Nat
  hi    : Nat
  cz1   : Bool
  deriving DecidableEq, Repr

/-- R324's table, with the CZ1 subset of R322. -/
def opInfo : Op → OpInfo
  | .cfgRead => ⟨0x0101, .module, .n, .zero, 32, 32, true⟩
  | .cfgStage => ⟨0x0102, .module, .n, .zero, 32, 4064, true⟩
  | .cfgCommit => ⟨0x0103, .module, .n, .act, 0, 0, true⟩
  | .progLoad => ⟨0x0201, .pit, .f, .zero, 32, 32, false⟩
  | .progVerify => ⟨0x0202, .pit, .f, .zero, 32, 32, false⟩
  | .launch => ⟨0x0301, .pit, .n, .act, 32, 32, true⟩
  | .haltAt => ⟨0x0302, .pit, .n, .act, 0, 0, true⟩
  | .epochBegin => ⟨0x0303, .module, .n, .act, 0, 0, true⟩
  | .streamOpen => ⟨0x0401, .pit, .d, .zero, 64, 64, false⟩
  | .streamChunk => ⟨0x0402, .pit, .s, .zero, 96, 4064, false⟩
  | .streamPause => ⟨0x0403, .pit, .s, .zero, 0, 0, false⟩
  | .streamResume => ⟨0x0404, .pit, .s, .zero, 0, 0, false⟩
  | .streamExport => ⟨0x0405, .pit, .s, .accept, 32, 32, false⟩
  | .streamImport => ⟨0x0406, .pit, .d, .zero, 64, 64, false⟩
  | .streamClose => ⟨0x0407, .pit, .s, .zero, 0, 0, false⟩
  | .streamQuery => ⟨0x0408, .pit, .s, .zero, 0, 0, false⟩
  | .collBucketDef => ⟨0x0501, .pit, .b, .zero, 64, 64, false⟩
  | .collArm => ⟨0x0502, .pit, .b, .zero, 0, 0, false⟩
  | .collQuery => ⟨0x0503, .pit, .b, .zero, 0, 0, false⟩
  | .tableLoad => ⟨0x0601, .pit, .f, .zero, 32, 32, false⟩
  | .tableSwap => ⟨0x0602, .pit, .f, .act, 0, 0, false⟩
  | .tableQuery => ⟨0x0603, .module, .f1, .zero, 0, 0, false⟩
  | .memCopy => ⟨0x0701, .module, .n, .zero, 32, 32, true⟩
  | .memFill => ⟨0x0702, .module, .n, .zero, 32, 32, true⟩
  | .memScrub => ⟨0x0703, .module, .n, .zero, 32, 32, true⟩
  | .memRetire => ⟨0x0704, .module, .n, .zero, 32, 32, true⟩
  | .readyQuery => ⟨0x0801, .module, .n, .zero, 0, 0, true⟩
  | .bistRun => ⟨0x0802, .module, .fn, .zero, 32, 32, true⟩
  | .faceRetire => ⟨0x0803, .module, .f, .zero, 0, 0, true⟩
  | .fwPiece => ⟨0x0901, .module, .n, .zero, 32, 32, false⟩
  | .fwStatus => ⟨0x0902, .module, .n, .zero, 0, 0, true⟩
  | .fwConfirm => ⟨0x0903, .module, .n, .zero, 0, 0, false⟩
  | .fwRelayEnable => ⟨0x0904, .module, .n, .zero, 32, 32, false⟩
  | .twinPair => ⟨0x0A01, .pit, .n, .zero, 32, 32, false⟩
  | .twinUnpair => ⟨0x0A02, .pit, .n, .zero, 0, 0, false⟩
  | .errRead => ⟨0x0B01, .module, .n, .zero, 32, 32, true⟩
  | .errAck => ⟨0x0B02, .module, .n, .zero, 32, 32, true⟩
  | .pitCreate => ⟨0x0C01, .create, .n, .zero, 32, 32, false⟩
  | .pitDestroy => ⟨0x0C02, .pit, .n, .zero, 0, 0, false⟩
  | .routeEpoch => ⟨0x0C03, .module, .n, .zero, 32, 32, false⟩

def allOps : List Op :=
  [.cfgRead, .cfgStage, .cfgCommit, .progLoad, .progVerify, .launch, .haltAt, .epochBegin, .streamOpen, .streamChunk,
   .streamPause, .streamResume, .streamExport, .streamImport, .streamClose, .streamQuery, .collBucketDef, .collArm, .collQuery,
   .tableLoad] ++
  [.tableSwap, .tableQuery, .memCopy, .memFill, .memScrub, .memRetire, .readyQuery, .bistRun, .faceRetire, .fwPiece, .fwStatus,
   .fwConfirm, .fwRelayEnable, .twinPair, .twinUnpair, .errRead, .errAck, .pitCreate, .pitDestroy, .routeEpoch]

def opOfCode (code : Nat) : Option Op := allOps.find? fun o => (opInfo o).code == code

/-- What the Weighbridge answers itself while the Derrick is down (R317). -/
def weighbridgeOp : Op → Bool
  | .readyQuery | .fwPiece | .fwStatus | .errRead | .errAck | .cfgRead => true
  | _ => false

/-! ### Packets (R318) -/

/-- A packet as it was read: its opcode number and its fields. -/
structure RawPacket where
  code : Nat
  pk   : CmdPacket
  deriving DecidableEq, Repr

/-- A packet from the bytes of an SQ slot, a datagram or a fabric packet; bytes that are not there read as 0. -/
def parsePacket (path : Path) (b : List Byte) : RawPacket :=
  ⟨leAt b 2 2, { path := path, ver := BitVec.ofNat 8 (leAt b 0 1), flags := BitVec.ofNat 8 (leAt b 1 1)
                 tag := BitVec.ofNat 16 (leAt b 4 2), pitCls := BitVec.ofNat 16 (leAt b 6 2), target := BitVec.ofNat 64 (leAt b 8 8)
                 execAt := BitVec.ofNat 64 (leAt b 16 8), plen := BitVec.ofNat 32 (leAt b 24 4), crc := BitVec.ofNat 32 (leAt b 28 4)
                 params := b.drop 32 }⟩

/-- The parameter block: PLEN bytes. -/
def cmdParams (pk : CmdPacket) : List Byte := padTo pk.plen.toNat pk.params

/-- The header with its CRC field zeroed, then the parameter block. -/
def packetBytes (code : Nat) (pk : CmdPacket) : List Byte :=
  [pk.ver, pk.flags] ++ leBytes 2 code ++ leBytes 2 pk.tag.toNat ++ leBytes 2 pk.pitCls.toNat ++ leBytes 8 pk.target.toNat
    ++ leBytes 8 pk.execAt.toNat ++ leBytes 4 pk.plen.toNat ++ zeros 4 ++ cmdParams pk

def cmdPit (pk : CmdPacket) : PitId := pk.pitCls.setWidth 12
def cmdClass (pk : CmdPacket) : Nat := bits pk.pitCls.toNat 15 14
def cmdPend (pk : CmdPacket) : Bool := pk.flags.getLsbD 0
def cmdFence (pk : CmdPacket) : Bool := pk.flags.getLsbD 1
def cmdKey (pk : CmdPacket) : CmdKey := ⟨pk.path, pk.tag⟩
/-- A little-endian field of the parameter block. -/
def cmdArg (pk : CmdPacket) (off n : Nat) : Nat := leAt (cmdParams pk) off n
/-- A parameter byte range that must be 0 (R5). -/
def cmdZero (pk : CmdPacket) (off n : Nat) : Bool := zeroAt (cmdParams pk) off n

/-! ### Refusals (R320, R322) -/

abbrev Refuse := Status × List Byte

/-- BAD_PARAM: offset in the packet, offset in the artefact. -/
def badParam2 (off inner : Nat) : Refuse := (.badParam, leBytes 4 off ++ leBytes 4 inner)
def badParam (off : Nat) : Refuse := badParam2 off 0xFFFFFFFF
/-- BAD_PARAM of a parameter at offset `off` of the parameter block. -/
def badArg (off : Nat) : Refuse := badParam (32 + off)

/-- The version list of packets, and that of an artefact. -/
def packetVersions : List Byte := [0x02, 0x02, 0x00, 0x00, 0x00, 0x01, 0x00, 0x0F, 0x01]
def artefactVersions : List Byte := [0x01, 0x02, 0x00, 0x00, 0x02]
def badArtefact : Refuse := (.badVersion, artefactVersions)

/-- The refusal of the first check that fails. -/
def refusal : List (Bool × Refuse) → Option Refuse
  | [] => none
  | (ok, r) :: l => if ok then refusal l else some r

def firstRefusal : List (Option Refuse) → Option Refuse
  | [] => none
  | none :: l => firstRefusal l
  | some r :: _ => some r

/-- What an opcode's own rules answer: a refusal, which changes nothing; one after the artefact was read (R249); a final reply in the acceptance tick; or acceptance with
the final reply to come; or a wait for the boundary at which the Derrick accepts it (R323). -/
inductive Answer where
  | refuse (r : Refuse)
  | reject (s : State) (r : Refuse)
  | done (s : State) (st : Status) (payload : List Byte)
  | later (s : State)
  | held (s : State)

/-- Steps 8 and 9 of R320 and the command's effect. -/
abbrev Accept := State → CmdPacket → Ticket → Answer

/-- Refuse by the first failing check, or go on. -/
def answerIf (r : Option Refuse) (k : Answer) : Answer :=
  match r with
  | some r => .refuse r
  | none => k

/-! ### Steps 1 to 7 of R320 -/

/-- Faces of a target of kind F (R323). -/
def targetFaces (t : BitVec 64) : List FaceId :=
  allFaces.filter fun f => t.getLsbD (f.val / 12) && t.getLsbD (8 + f.val % 12)

def onesIn (v n : Nat) : Nat := ((List.range n).filter (bit v)).length

/-- TARGET has the form of its kind and names a unit. -/
def targetOk (k : TKind) (pk : CmdPacket) : Bool :=
  let t := pk.target.toNat
  let f := decide (t < 2 ^ 20) && decide (t % 256 ≠ 0) && decide (t / 256 ≠ 0)
  match k with
  | .n => t == 0
  | .f => f
  | .f1 => f && onesIn t 8 == 1 && onesIn (t / 256) 12 == 1
  | .fn => if cmdArg pk 0 1 = 0 then f else t == 0
  | .s => decide (t < 2 ^ 48)
  | .d => decide (t < 16)
  | .b => decide (t < 2 ^ 12)

/-- EXEC_AT has the form of its meaning. -/
def execAtOk (k : AtKind) (tick : Nat) (pk : CmdPacket) : Bool :=
  let e := pk.execAt.toNat
  match k with
  | .zero => e == 0
  | _ => e == 0 || (decide (tick < e) && decide (e < tick + 2 ^ 31))

/-- The boundary that an Act command names: EXEC_AT, or the first one after acceptance. -/
def actTick (s : State) (pk : CmdPacket) : Nat := if pk.execAt = 0 then s.tk.tickCount.toNat + 1 else pk.execAt.toNat

/-- The Pit ID to which a path is locked, if any (R315, R317). -/
def pathLock (s : State) (p : Path) : Option PitId :=
  match p with
  | .queue q => if (s.queue q).pitLock = 0 then none else some (s.queue q).pitLock
  | .mgmt _ => some 0
  | .fabric _ => none

/-- Step 6 of R320. -/
def scopeOk (s : State) (sc : Scope) (pk : CmdPacket) : Bool :=
  let pit := cmdPit pk
  (match sc with
    | .pit => pit == s.pit.id && pit != 0
    | .module => pit == 0 || pit == s.pit.id
    | .create => s.pit.id == 0)
  && (match pathLock s pk.path with | some l => pit == l | none => true)

/-- Stream commands that class 1 carries (R206). -/
def serveOp : Op → Bool
  | .streamOpen | .streamChunk | .streamPause | .streamResume | .streamClose | .streamQuery => true
  | _ => false

/-- Step 4: the arrival path allows the opcode. -/
def pathAllows (s : State) (o : Op) : Path → Bool
  | .fabric _ => s.strm.serve && serveOp o
  | _ => true

def pathClass : Path → Nat
  | .fabric _ => 1
  | _ => 0

/-- VER is spoken and the opcode belongs to the version's set; an unknown opcode of format 2.0 is left to step 4. -/
def versionOk (ver : Byte) (o : Option Op) : Bool :=
  ver == 0x20 || (decide (0x10 ≤ ver.toNat) && decide (ver.toNat ≤ 0x1F) && (match o with | some o => (opInfo o).cz1 | none => false))

/-- Steps 1 to 3 of R320, which need no opcode. -/
def formChecks (code : Nat) (o : Option Op) (pk : CmdPacket) : Option Refuse :=
  let n := pk.plen.toNat
  refusal [
    (versionOk pk.ver o, (.badVersion, packetVersions)),
    (decide (n % 32 = 0 ∧ n ≤ 4064), badParam 24),
    ((match o with | some o => decide ((opInfo o).lo ≤ n ∧ n ≤ (opInfo o).hi) | none => true), badParam 24),
    (crc32c (packetBytes code pk) == pk.crc, (.badCrc, []))]

/-- Steps 4 to 7 of R320. -/
def packetChecks (s : State) (o : Op) (pk : CmdPacket) : Option Refuse :=
  let i := opInfo o
  refusal [
    (pathAllows s o pk.path, (.badOpcode, [])),
    (decide (pk.flags.toNat < 4), badParam 1),
    (bits pk.pitCls.toNat 13 12 == 0 && cmdClass pk == pathClass pk.path, badParam 6),
    (!(s.host.outstanding.any fun t => t.key == cmdKey pk), badParam 4),
    (scopeOk s i.scope pk, (.pitDenied, [])),
    (targetOk i.tgt pk, badParam 8),
    (execAtOk i.at_ s.tk.tickCount.toNat pk, badParam 16)]

/-! ### Acceptance and reply -/

/-- A PENDING reply carries 0 as its completion tick and no payload (R319). -/
def State.pendingReply (s : State) (pk : CmdPacket) : State :=
  s.deliver ⟨pk.path, pk.tag, .pending, s.tick32, 0, []⟩

/-- Trace source of a path: its queue, or 64 for the others (R332; log entry 25). -/
def pathQueue : Path → Nat
  | .queue q => q.val
  | _ => 64

/-- The trace record of an acceptance (R332); a refused command writes none (R320). -/
def State.noteAccepted (s : State) (code : Nat) (pk : CmdPacket) : State :=
  s.trace 1 0x0002 [pathQueue pk.path, code, pk.tag.toNat]

/-- A command that passed steps 1 to 7 meets its own rules (R320 steps 8 and 9) and is answered (R319). -/
def State.answer (s : State) (acc : Accept) (code : Nat) (pk : CmdPacket) : State :=
  let t : Ticket := ⟨cmdKey pk, s.tick32⟩
  match acc s pk t with
  | .refuse r => s.replyNow (cmdKey pk) r.1 r.2
  | .reject s' r => s'.replyNow (cmdKey pk) r.1 r.2
  | .done s' st p => (s'.noteAccepted code pk).replyNow (cmdKey pk) st p
  | .later s' =>
    let s' := { s' with host := { s'.host with outstanding := s'.host.outstanding ++ [t] } }.noteAccepted code pk
    if cmdPend pk then s'.pendingReply pk else s'
  | .held s' => { s' with host := { s'.host with outstanding := s'.host.outstanding ++ [t] } }

/-- The Derrick checks one packet; `acc` gives each opcode's own rules. While the Derrick is down the Weighbridge refuses what
it does not answer itself (R317). -/
def State.check (s : State) (acc : Op → Accept) (r : RawPacket) : State :=
  let o := opOfCode r.code
  let k := cmdKey r.pk
  match formChecks r.code o r.pk with
  | some x => s.replyNow k x.1 x.2
  | none =>
    match o with
    | none => s.replyNow k .badOpcode []
    | some o =>
      if !s.pwr.derrick && !weighbridgeOp o then s.replyNow k .notReady []
      else
        match packetChecks s o r.pk with
        | some x => s.replyNow k x.1 x.2
        | none => s.answer (acc o) r.code r.pk

end Sys2Proof.Machine
end

