-- ==== Sys2Proof/Machine/Torus.lean ====
section
/-! DEFINITION. Routes on the torus: the default table
(R269, R272, R279), the table in force (R270, R271), PIT_HOPS and NOTICE (R220). Axes 0, 1, 2 are x, y, z; ports 2 i and 2 i + 1
face the positive and the negative direction of axis i. -/

namespace Sys2Proof.Machine

/-! ### The default table (R269, R272, R279) -/

/-- Signed steps from a to b along a ring of n: the shorter way, the positive one on a tie. -/
def ringStep (n a b : Nat) : Int := let d := ringOff n a b; if d ≤ n - d then d else (d : Int) - n

/-- Whether the block covers the whole ring of an axis; without a Pit every ring is open. -/
def State.wholeRing (s : State) (i : Nat) : Bool := s.pit.id == 0 || decide (s.dim i ≤ s.pit.size i)

/-- Signed steps from a to b on an axis: class 0, or data inside the block. -/
def State.axisStep (s : State) (data : Bool) (a b : FAddr) (i : Nat) : Int :=
  if data && !s.wholeRing i then (s.blockOff b i : Int) - s.blockOff a i else ringStep (s.dim i) (coord a i) (coord b i)

/-- Port of a step on an axis. -/
def stepPort (i : Nat) (st : Int) : Nat := if 0 < st then 2 * i else 2 * i + 1

/-- Dimension order: the port from a towards b, 6 where they are equal. -/
def State.orderPort (s : State) (data : Bool) (a b : FAddr) : Nat :=
  match [0, 1, 2].find? fun i => s.axisStep data a b i ≠ 0 with
  | some i => stepPort i (s.axisStep data a b i)
  | none => 6

/-- A hop on a port crosses its ring's dateline (log entry 40). -/
def State.dateline (s : State) (a : FAddr) (port : Nat) : Bool :=
  let i := port / 2
  decide (port < 6) && decide (1 < s.dim i) && (if port % 2 = 0 then coord a i + 1 == s.dim i else coord a i == 0)

/-- A unicast entry of the default table. A data route to a module outside the block is unreachable. -/
def State.defaultUni (s : State) (d : FAddr) : Nat :=
  let me := s.fab.faddr
  let p0 := s.orderPort false me d
  let p1 := if s.pit.id ≠ 0 ∧ !s.inBlock d then 7 else s.orderPort true me d
  p0 + 8 * p1 + 64 * b2n (s.dateline me p0) + 128 * b2n (s.dateline me p1)

/-- Whether the dimension-order tree from src goes on from here along axis i in the positive or negative direction. -/
def State.treeFwd (s : State) (src : FAddr) (i : Nat) (positive : Bool) : Bool :=
  let me := s.fab.faddr
  let st := s.axisStep true src me i
  let off := s.blockOff me i
  let n := s.dim i
  let later := [0, 1, 2].all fun j => decide (j ≤ i) || coord me j == coord src j
  let room :=
    if s.wholeRing i then (if positive then decide (2 * (st + 1) ≤ n) else decide (-2 * (st - 1) < n))
    else if positive then decide (off + 1 < s.pit.size i) else decide (0 < off)
  later && (if positive then decide (0 ≤ st) else decide (st ≤ 0)) && room

/-- A broadcast entry of the default table: within the block, for sources inside it. -/
def State.defaultBc (s : State) (src : FAddr) : Nat :=
  if s.inBlock src && s.inBlock s.fab.faddr then
    bitsOf ([0, 1, 2].flatMap fun i => [s.treeFwd src i true, s.treeFwd src i false]) + 64 * b2n (src != s.fab.faddr)
  else 0

/-! ### The table in force -/

def State.uniEntry (s : State) (d : FAddr) : Nat :=
  match s.fab.route with
  | some r => (r.uni.getD d.toNat 7).toNat
  | none => s.defaultUni d

def State.bcEntry (s : State) (src : FAddr) : Nat :=
  match s.fab.route with
  | some r => (r.bc.getD src.toNat 0).toNat
  | none => s.defaultBc src

def uniPort (e : Nat) (data : Bool) : Nat := if data then bits e 5 3 else bits e 2 0
def uniVcx (e : Nat) (data : Bool) : Bool := if data then bit e 7 else bit e 6

/-- PIT_HOPS of the table in force (R271, R272). -/
def State.pitHops (s : State) : Nat :=
  match s.fab.route with
  | some r => r.pitHops.toNat
  | none =>
    let h := fun i => if s.dim i ≤ s.pit.size i then s.dim i / 2 else s.pit.size i - 1
    h 0 + h 1 + h 2

/-- NOTICE as PIT_CREATE and EPOCH_BEGIN compute it: 1 for a one-module Pit and for no Pit (R220); a pairing across two Pits keeps
the larger value (R234). -/
def State.newNotice (s : State) : Byte :=
  let own := if s.pit.id = 0 ∨ s.pitSize = 1 then 1 else noticeOf s.pitHops s.cfg.tpCur.toNat
  if s.twinElsewhere then (if own.toNat ≤ s.tk.notice.toNat then s.tk.notice else own) else own

end Sys2Proof.Machine
end

