-- ==== Sys2Proof/Machine/Fabric.lean ====
section
/-! DEFINITION. Shared operations of the fabric: hellos (R265, R266), link state changes (R264), the timebase's parent and lock
(R283, R284). -/

namespace Sys2Proof.Machine

def allPorts : List PortId := List.finRange 6

/-! ### Packet bytes (R274) -/

/-- The 32-byte header of a packet. -/
def packetHeader (p : Packet) : List Byte :=
  [p.rtlVer, BitVec.ofNat 8 (p.cls.toNat + 4 * b2n p.bcast + 8 * b2n p.sroute)] ++ leBytes 2 p.pit.toNat ++ leBytes 2 p.dst.toNat
    ++ leBytes 2 p.src.toNat ++ [p.kind, p.vis.setWidth 8, p.hops.setWidth 8, 0] ++ leBytes 2 p.tag.toNat ++ leBytes 2 p.len.toNat
    ++ leBytes 8 p.tick.toNat ++ leBytes 8 p.addr.toNat

/-! ### Flits (R262) -/

/-- A flit as it waits: SEQ, ACK, NAK and CRC come when it is sent. -/
def bareFlit (cls : BitVec 2) (vc sop eop : Bool) (poison : Nat) (payload : List Byte) : Flit :=
  { seq := 0, ack := 0, ackValid := false, nak := false, cls := cls, vc := vc, sop := sop, eop := eop, idle := false
    poison := BitVec.ofNat 4 poison, crc := 0, payload := payload, load := none }

/-- The flits of a packet, of which the first brings what the packet carries. Bit i of POISON in flit k marks the packet's piece
4 k + i. -/
def packetFlits (p : Packet) : List Flit :=
  let b := packetHeader p ++ p.body
  let n := ceilDiv b.length 256
  (List.range n).map fun k =>
    { bareFlit p.cls p.vc (k == 0) (k + 1 == n) (bitsOf ((List.range 4).map fun i => p.marks.contains (4 * k + i)))
        (padTo 256 (b.drop (256 * k))) with
      load := if k = 0 then p.load else none }

/-- Largest body of a packet (R274). -/
def maxBody : Nat := 4064

/-- Pieces of a range of bytes that fill packets: offset and length. -/
def bodyCuts (n : Nat) : List (Nat × Nat) :=
  (List.range (ceilDiv n maxBody)).map fun i => (i * maxBody, Nat.min maxBody (n - i * maxBody))

/-- The 64-byte pieces of a packet's payload that hold a byte of a marked granule; the header takes the first 32 bytes. -/
def packetMarks (gs : List Nat) (a n : Nat) : List Nat :=
  (List.range ((n + 32 + 63) / 64)).filter fun i =>
    let lo := Nat.max (64 * i) 32 - 32
    let hi := Nat.min (64 * i + 64 - 32) n
    decide (lo < hi) && gs.any fun g => granHits g (a + lo) (hi - lo)

/-- Granules of a landing write that a marked byte reaches (R262). -/
def landingMarks (pkt : Packet) : List Nat :=
  pkt.marks.flatMap fun i =>
    let lo := Nat.max (64 * i) 32 - 32
    let hi := Nat.min (64 * i + 32) pkt.body.length
    if lo < hi then grans (pkt.addr.toNat + lo) (hi - lo) else []

/-- A packet of class 1 or 2 from this module to a member of its Pit (R274). -/
def State.dataPacket (s : State) (cls : BitVec 2) (kind : Byte) (dst : FAddr) (vis : Nat) (tag : BitVec 16) (tick : BitVec 64)
    (addr : DevAddr) (body : List Byte) (marks : List Nat) (load : Option Load) : Packet :=
  { rtlVer := 0x20, cls := cls, bcast := false, sroute := false, rsvd := false, pit := s.pit.id, dst := dst, src := s.fab.faddr
    kind := kind, vis := BitVec.ofNat 4 vis, hops := 0, tag := tag, len := BitVec.ofNat 16 body.length, tick := tick, addr := addr
    body := body, marks := marks, vc := false, load := load }

/-- Flits enter a port's queue of their class. The module's own class-0 flits enter it once a frame and wait otherwise (R277). -/
def Port.enqueue (x : Port) (own : Bool) (cls : BitVec 2) (l : List Flit) : Port :=
  match cls.toNat with
  | 0 =>
    if own && (x.sentC0 || !x.own0.isEmpty) then { x with own0 := x.own0 ++ l }
    else { x with q0 := x.q0 ++ l, sentC0 := x.sentC0 || own }
  | 1 => { x with q1 := x.q1 ++ l }
  | 2 => { x with q2 := x.q2 ++ l }
  | _ => { x with q3 := x.q3 ++ l }

/-- A port's class-0 queue holds more than 400 packets (R278). -/
def Port.crowded (x : Port) : Bool := decide (400 < x.q0.length)

def State.enqueue (s : State) (p : PortId) (own : Bool) (cls : BitVec 2) (l : List Flit) : State :=
  let s := s.updPort p fun x => x.enqueue own cls l
  { s with fab := { s.fab with c0Flag := s.fab.c0Flag || (s.port p).crowded } }

/-! ### Hellos -/

/-- The hello of R265 on a port. -/
def State.helloBody (s : State) (p : PortId) : List Byte :=
  let b := [0x20, 0x20, BitVec.ofNat 8 p.val, BitVec.ofNat 8 (b2n s.fab.valid + 2 * b2n s.fab.locked)] ++ leBytes 2 s.fab.faddr.toNat
    ++ leBytes 2 s.pit.id.toNat ++ padTo 16 s.flash.serial ++ leBytes 4 s.flash.chassis.toNat ++ [s.flash.slot]
    ++ [s.fab.depth.setWidth 8] ++ zeros 30
  b ++ leBytes 4 (crc32c b).toNat

/-- The flit payload that carries it (R266). -/
def State.helloPayload (s : State) (p : PortId) : List Byte :=
  let h : Packet :=
    { rtlVer := 0x20, cls := 0, bcast := false, sroute := false, rsvd := false, pit := 0, dst := 0
      src := if s.fab.valid then s.fab.faddr else 0, kind := 0x15, vis := 0, hops := 0, tag := 0, len := 64
      tick := s.tk.tickCount, addr := 0, body := [], marks := [], vc := false, load := none }
  padTo 256 (packetHeader h ++ s.helloBody p)

def LinkSt.hellos : LinkSt → Bool
  | .hello | .up | .mismatch | .miswired => true
  | _ => false

/-- A hello is one class-0 flit (R265). -/
def State.sendHello (s : State) (p : PortId) : State :=
  if (s.port p).state.hellos then s.enqueue p true 0 [bareFlit 0 false true true 0 (s.helloPayload p)] else s

def State.sendHellos (s : State) : State := allPorts.foldl State.sendHello s

/-- A change of a hello's field sends it again (R265). -/
def State.helloChange (old new : State) : State := if old.helloBody 0 = new.helloBody 0 then new else new.sendHellos

/-! ### Timebase -/

/-- A neighbour goes before another as parent: the lower master, then the smaller depth (R283, R284). -/
def Port.leads (x y : Port) : Bool :=
  decide (x.nbrMaster.toNat < y.nbrMaster.toNat) || (x.nbrMaster == y.nbrMaster && decide (x.nbrDepth.toNat < y.nbrDepth.toNat))

/-- The locked UP neighbour that leads, the lowest port on a tie (R283). -/
def State.bestParent (s : State) : Option PortId :=
  allPorts.foldl (fun b p =>
    if (s.port p).state == .up && (s.port p).nbrTime then
      match b with
      | none => some p
      | some q => if (s.port p).leads (s.port q) then some p else b
    else b) none

/-- A new DEPTH; one above 50 raises TIME_DEPTH (R283). -/
def State.setDepth (s : State) (d : Nat) : State :=
  let d6 := BitVec.ofNat 6 (Nat.min d 63)
  let s' := { s with fab := { s.fab with depth := d6 } }
  if 50 < d6.toNat ∧ d6 ≠ s.fab.depth then s'.raise 0x0107 .module 0 [d6.setWidth 8] else s'

/-- The parent is chosen anew; a locked module without one enters holdover (R284). -/
def State.reparent (s : State) : State :=
  if s.fab.masterAct then s
  else
    match s.bestParent with
    | some p =>
      let s' := { s with fab := { s.fab with parent := some p, holdover := false } }
      if s.fab.locked then s'.setDepth ((s.port p).nbrDepth.toNat + 1) else s'
    | none => { s with fab := { s.fab with parent := none, holdover := s.fab.locked } }

/-- The module locks its timebase, as master or to its parent (R284). -/
def State.lockTime (s : State) : State :=
  let s' :=
    if s.fab.master then
      let count := if s.fab.locked then s.tk.frameCount else s.fab.maxFrame + 1
      { s with
        fab := { s.fab with locked := true, masterAct := true, depth := 0, parent := none, holdover := false, offset := 0 }
        tk := { s.tk with frameCount := count } }
    else if s.fab.locked then s
    else
      match s.bestParent with
      | some _ =>
        ({ s with fab := { s.fab with locked := true }, tk := { s.tk with frameCount := s.fab.maxFrame } }).reparent
      | none => s
  s.helloChange s'

/-- MASTER has changed to 0: the module follows again. -/
def State.unmaster (s : State) : State :=
  if s.fab.masterAct then s.helloChange ({ s with fab := { s.fab with masterAct := false } }).reparent else s

/-! ### Links -/

/-- The packet of KIND 0x15 of R266. -/
def helloFlit (f : Flit) : Bool := f.cls == 0 && f.sop && f.eop && leAt f.payload 8 1 == 0x15

/-- What a port drops when it leaves UP: all that waits but hellos. -/
def Port.dropTraffic (x : Port) : Port :=
  { x with q0 := x.q0.filter helloFlit, own0 := x.own0.filter helloFlit, q1 := [], q2 := [], q3 := [], linkVer := 0 }

/-- Packets that a port drops when it leaves UP. -/
def Port.traffic (x : Port) : Nat :=
  ((x.q0 ++ x.own0 ++ x.q1 ++ x.q2 ++ x.q3).filter fun f => f.eop && !helloFlit f).length

/-- Link state of a port that neither sends nor receives. -/
def Port.cutLink (x : Port) : Port :=
  { x.dropTraffic with
    q0 := [], own0 := [], txSeq := 0, replay := [], resend := [], rxSeq := 0, rxValid := false, discard := false
    fails := 0, naks := 0, nak := false, rxPart := [] }

def Port.enter (x : Port) (st : LinkSt) : Port :=
  let y := if st = .up then x else if st.hellos && x.state.hellos then x.dropTraffic else x.cutLink
  { y with state := st }

/-- A port changes state; the change is traced, and a parent that leaves UP is replaced (R264, R283, R332). What waits at a port that
leaves UP is dropped and counted as routed to a port that is not UP (R272; log entry 61). -/
def State.setLink (s : State) (p : PortId) (st : LinkSt) : State :=
  let x := s.port p
  if x.state = st then s
  else
    let s1 : State := if x.state = .up then { s with fab := { s.fab with unreach := satAdd 32 s.fab.unreach x.traffic } } else s
    let s2 := (s1.updPort p fun y => y.enter st).trace 2 0x0004 [p.val, x.state.code, st.code]
    s.helloChange s2.reparent

/-- A warning record for an entry into a state (R264). -/
def State.linkRecord (s : State) (p : PortId) (old new : LinkSt) : State :=
  s.raise 0x0106 (.port p.val) 0 [BitVec.ofNat 8 p.val, BitVec.ofNat 8 old.code, BitVec.ofNat 8 new.code]

end Sys2Proof.Machine
end

