-- ==== Sys2Proof/Machine/Settings.lean ====
section
/-! DEFINITION. Configuration commands (R325, R326), epochs and route images (R211, R212, R270, R271), LAUNCH and HALT_AT (R219 to
R221), and the queries of readiness and error records (R330, R337, R339). -/

namespace Sys2Proof.Machine

/-! ### Artefacts in memory (R249) -/

/-- The payload of MEM_POISONED: the first poisoned address and the number of poisoned granules. -/
def poisonPayload (gs : List Nat) : List Byte := leBytes 8 (gs.headD 0) ++ leBytes 4 gs.length

/-- Refuse with what the reads so far left behind, or go on. -/
def answerIn (s : State) (r : Option Refuse) (k : Answer) : Answer :=
  match r with
  | some r => .reject s r
  | none => k

/-- Read an artefact whole, then go on with its bytes; one with a poisoned granule is refused. -/
def withArtefact (s : State) (a n : Nat) (k : State → List Byte → Answer) : Answer :=
  let gs := s.mem.markedIn a n
  let s' := s.noteReads .hub [(a, n)]
  if gs.isEmpty then k s' (s.mem.bytes a n) else .reject s' (.memPoisoned, poisonPayload gs)

/-! ### CFG_READ, CFG_STAGE, CFG_COMMIT -/

/-- A register outside the standby domain lies in the range. -/
def hubRegisters (off words : Nat) : Bool :=
  (List.range words).any fun i => decide ((csrBits (off + 8 * i)).map ≠ 0) && !csrStandby (off + 8 * i)

/-- CFG_READ (R324, R325); with the hub die off only registers of the standby domain can be read (R17). -/
def acceptCfgRead : Accept := fun s pk _ =>
  let off := cmdArg pk 0 8
  let n := cmdArg pk 8 2
  answerIf (refusal [
      (decide (off % 8 = 0), badArg 0), (decide (1 ≤ n ∧ n ≤ 256), badArg 8), (decide (cmdArg pk 10 1 < 2), badArg 10),
      (cmdZero pk 11 21, badArg 11), (s.pwr.hub || !hubRegisters off n, (.notReady, []))])
    (.done s .ok (s.csrBytes (if cmdArg pk 10 1 = 1 then s.sched.staging else []) off n))

/-- The entries of CFG_STAGE. -/
def stageEntries (pk : CmdPacket) : List StageEntry :=
  (List.range (pk.plen.toNat / 32)).map fun i =>
    ⟨cmdArg pk (32 * i) 8, BitVec.ofNat 64 (cmdArg pk (32 * i + 8) 8), BitVec.ofNat 64 (cmdArg pk (32 * i + 16) 8)⟩

/-- Fast mode asked of a Pit with a twin pairing (R26). -/
def fastTwin (s : State) (off v mask : Nat) : Bool := s.twin.paired && off == 0x0080 && bit mask 0 && bit v 0

/-- MASK of an entry covers no RO, RW, W1C or live bit of a register (R325). -/
def StageEntry.maskOk (e : StageEntry) : Bool :=
  let b := csrBits e.off
  let m := e.mask.toNat &&& b.map
  decide (m &&& (b.lk ||| b.st ||| b.rsvd) = m)

/-- OFFSET of an entry is a multiple of 8 inside the map, and MASK sets no bit on which no register lies (R325). -/
def StageEntry.offOk (e : StageEntry) : Bool :=
  decide ((csrBits e.off).map ≠ 0) && decide (e.mask.toNat &&& (csrBits e.off).map = e.mask.toNat)

/-- One check of every entry, BAD_PARAM naming the entry's field at offset `o`. -/
def eachEntry (es : List StageEntry) (o : Nat) (ok : StageEntry → Bool) : Option Refuse :=
  refusal (((List.range es.length).zip es).map fun (i, e) => (ok e, badArg (32 * i + o)))

/-- The value range of each entry, with the entries before it staged (R325). -/
def valuesRefusal (s : State) : List StageEntry → Nat → List StageEntry → Option Refuse
  | _, _, [] => none
  | l, i, e :: r =>
    let v := maskIn (s.csrStaged l e.off) e.value.toNat e.mask.toNat
    if rangeFits e.off v e.mask.toNat && !fastTwin s e.off v e.mask.toNat then valuesRefusal s (stageOne l e) (i + 1) r
    else some (badArg (32 * i + 8))

/-- A stream of the module is not CLOSED. -/
def State.streamsOpen (s : State) : Bool := s.strm.ents.any fun e => !e.closing

/-- CFG_STAGE (R325): each check of every entry in the order in which the rule lists the checks (R320). -/
def acceptCfgStage : Accept := fun s pk _ =>
  let es := stageEntries pk
  let l := es.foldl stageOne s.sched.staging
  answerIf (firstRefusal [
      refusal ((List.range es.length).map fun i => (cmdZero pk (32 * i + 24) 8, badArg (32 * i + 24))),
      eachEntry es 16 StageEntry.maskOk, eachEntry es 0 StageEntry.offOk, valuesRefusal s s.sched.staging 0 es,
      refusal [
        (!(es.any StageEntry.lk) || s.tk.run == .stopped, (.configBusy, [])),
        (!(es.any StageEntry.slotK) || !s.streamsOpen, (.configBusy, [])),
        (decide (l.length ≤ 1024), (.configBusy, []))]])
    (.done { s with sched := { s.sched with staging := l } } .ok [])

/-- BAD_PARAM of a staged value: the CSR offset of its register (R320). -/
def badStaged (off : Nat) : Refuse := badParam2 0xFFFFFFFF off

/-- The staged FAB_ID is consistent (R268). -/
def fabIdOk (v : Nat) : Bool :=
  decide (bits v 30 26 ≤ 23) && decide (bits v 4 0 ≤ bits v 20 16) && decide (bits v 9 5 ≤ bits v 25 21)
    && decide (bits v 14 10 ≤ bits v 30 26)

/-- A spilled stream's allocation: die, address, bytes (R187, R188). -/
def StreamEnt.die (e : StreamEnt) : Nat := bits e.handle.toNat 15 13
def StreamEnt.spillBytes (e : StreamEnt) : Nat := ceilDiv (e.carryBytes + e.initBytes) 65536 * 65536

/-- The staged pool of die d lies in HBM and holds every live allocation of the die (R189). -/
def State.poolOk (s : State) (d v : Nat) : Bool :=
  let size := bits v 63 40 * 65536
  let base := bits v 39 16 * 65536
  (size == 0 || (s.mem.rangeOk base size && (s.mem.region base).isHbm))
  && s.strm.ents.all fun e =>
    match e.spill with
    | some a => e.die != d || (decide (base ≤ a.toNat) && decide (a.toNat + e.spillBytes ≤ base + size))
    | none => true

/-- The BAD_PARAM checks of CFG_COMMIT (R26, R189, R268). -/
def commitRefusal (s : State) (l : List StageEntry) : Option Refuse :=
  refusal ([
    (!(l.any fun e => e.off == 0x0040) || fabIdOk (s.csrStaged l 0x0040), badStaged 0x0040),
    (!(s.twin.paired && bit (s.csrStaged l 0x0080) 0), badStaged 0x0080)] ++
    (List.range 8).map fun d =>
      (!(l.any fun e => e.off == 0x0148 + 8 * d) || s.poolOk d (s.csrStaged l (0x0148 + 8 * d)), badStaged (0x0148 + 8 * d)))

/-- CFG_COMMIT (R326). -/
def acceptCfgCommit : Accept := fun s pk t =>
  let l := s.sched.staging
  let fabNow := s.csr64 0x0040
  answerIf (firstRefusal [
      commitRefusal s l,
      refusal [
        (!(l.any StageEntry.lk) || s.tk.run == .stopped, (.configBusy, [])),
        (s.csrStaged l 0x0040 == fabNow || s.pit.id == 0, (.configBusy, [])),
        (!(l.any StageEntry.slotK) || !s.streamsOpen, (.configBusy, []))]])
    (.later { s with sched := { s.sched with commits := s.sched.commits ++ [⟨t, actTick s pk, l⟩], staging := [] } })

/-- A commit's entries take effect (R214 step 3); MASTER acts at once on the timebase (R284). -/
def State.applyCommit (s : State) (l : List StageEntry) : State :=
  let s1 := s.helloChange (l.foldl State.applyEntry s)
  if s1.fab.master = s.fab.master then s1 else if s1.fab.master then s1.lockTime else s1.unmaster

/-- The state with the commits due by a tick applied. -/
def State.afterCommits (s : State) (t : Nat) : State :=
  (s.sched.commits.filter fun c => decide (c.at_ ≤ t)).foldl (fun s c => c.entries.foldl State.applyEntry s) s

/-! ### Readings as numbers -/

/-- A binary32 reading lies above a limit. -/
def above (r : BitVec 32) (lim : Rat) : Bool :=
  match ieeeDecode 8 23 r.toNat with
  | .fin q => decide (lim < q)
  | .inf neg => !neg
  | _ => false

/-- Sensor n of the last poll (R374). -/
def sensorOf (r : Readings) (n : Nat) : BitVec 32 := r.temps.getD n 0

/-! ### Route images (R270, R271) -/

def routeLength : Nat := 65600

/-- The neighbour that a port must face (R269). -/
def State.neighbour (s : State) (p : Nat) : FAddr :=
  let me := s.fab.faddr
  let c := fun i => if i = p / 2 then (if p % 2 = 0 then coord me i + 1 else coord me i + s.dim i - 1) % s.dim i else coord me i
  addrOf (c 0) (c 1) (c 2)

/-- A port that takes no routes: MISMATCH, MISWIRED or DISABLED. -/
def LinkSt.barred : LinkSt → Bool
  | .mismatch | .miswired | .disabled => true
  | _ => false

def State.barredPort (s : State) (p : Nat) : Bool := decide (p < 6) && (s.portAt p).state.barred

/-- First offset in an image whose field fails step 3 of R271. -/
def State.routeFault (s : State) (b : List Byte) : Option Nat :=
  let uni := (b.drop 64).take 32768
  let bc := b.drop (64 + 32768)
  let firstAt := fun (l : List Byte) (base : Nat) (bad : Nat → Byte → Bool) =>
    (((List.range l.length).zip l).find? fun (i, x) => bad i x).map fun (i, _) => base + i
  ([([1, 2, 3, 9, 10, 11] ++ rangeFrom 14 46).find? fun i => leAt b i 1 ≠ 0,
    if leAt b 12 2 ≥ 2 ^ 15 then some 12 else none,
    firstAt bc (64 + 32768) fun _ x => decide (128 ≤ x.toNat),
    if leAt b 4 4 = 0 then some 4 else none,
    if leAt b 12 2 ≠ s.fab.faddr.toNat then some 12 else none,
    firstAt uni 64 fun _ x => s.barredPort (uniPort x.toNat false) || s.barredPort (uniPort x.toNat true),
    firstAt bc (64 + 32768) fun _ x => (List.range 6).any fun p => bit x.toNat p && s.barredPort p,
    firstAt uni 64 fun i x =>
      s.inBlock (BitVec.ofNat 15 i) && decide (uniPort x.toNat true < 6) && !s.inBlock (s.neighbour (uniPort x.toNat true))
    ] : List (Option Nat)).findSome? id

/-- ROUTE_EPOCH (R271). -/
def acceptRouteEpoch : Accept := fun s pk _ =>
  let a := cmdArg pk 0 8
  answerIf (refusal [
      (decide (cmdArg pk 8 4 = routeLength), badArg 8), (cmdZero pk 12 20, badArg 12),
      (s.mem.cmdRangeOk a routeLength, badArg 0)])
    (withArtefact s a routeLength fun s b =>
      answerIn s (firstRefusal [
          refusal [
            (leAt b 0 1 == 0x20, badArtefact),
            (leNat ((b.drop 60).take 4) == (crc32c (b.take 60 ++ zeros 4 ++ b.drop 64)).toNat, (.badCrc, []))],
          (s.routeFault b).map fun o => badParam2 32 o])
        (.done { s with fab := { s.fab with
            staged := some ⟨BitVec.ofNat 32 (leAt b 4 4), BitVec.ofNat 8 (leAt b 8 1), (b.drop 64).take 32768, b.drop (64 + 32768)⟩ } }
          .ok []))

/-! ### Epochs (R26, R211, R212) -/

/-- The refusals of R26 and R211 on the values that an epoch would apply. The plans of the Pit's other members are those that they have
last told (log entry 60). -/
def epochRefusal (s : State) : Option Refuse :=
  refusal [
    (decide (4 ≤ s.cfg.tpNext.toNat ∧ s.cfg.tpNext.toNat ≤ 2048), badStaged 0x0058),
    (s.cfg.clockNext != 3 || s.cfg.powerNext == 3, badStaged 0x00C8),
    (s.cfg.clockNext != 3 || !above (sensorOf s.pwr.block 0) 30, (.notReady, [])),
    (s.pit.plans.all (· == s.cfg.clockNext), (.pitDenied, []))]

/-- The Pit takes an EPOCH_BEGIN as a route epoch. -/
def State.routeOnly (s : State) : Bool := s.pit.id != 0 && s.tk.run != .stopped

/-- The conditions of R212 for a route epoch. -/
def State.routeEpochOk (s : State) : Bool :=
  match s.fab.staged with
  | none => false
  | some r =>
    let uni := fun d : FAddr => (r.uni.getD d.toNat 7).toNat
    s.members.all (fun d =>
      uniPort (uni d) true == uniPort (s.uniEntry d) true && uniVcx (uni d) true == uniVcx (s.uniEntry d) true
        && (r.bc.getD d.toNat 0).toNat == s.bcEntry d)
    && r.pitHops.toNat == s.pitHops
    && (List.range 6).all fun p =>
      !((s.portAt p).adminDown && (s.portAt p).state != .disabled)
        || s.members.all fun d => uniPort (s.uniEntry d) true != p

/-- What refuses an EPOCH_BEGIN in a state with its commits applied. -/
def epochCheck (s : State) : Option Refuse :=
  if s.routeOnly then (if s.routeEpochOk then none else some (.configBusy, [])) else epochRefusal s

/-- EPOCH_BEGIN. A second one while one waits, or while its clocks lock, is refused (log entry 41). -/
def acceptEpochBegin : Accept := fun s pk t =>
  answerIf (firstRefusal [
      epochCheck (s.afterCommits (actTick s pk)),
      refusal [(s.sched.epoch.isNone && s.sched.clockLock.isNone, (.configBusy, []))]])
    (.later { s with sched := { s.sched with epoch := some ⟨t, actTick s pk⟩ } })

/-- Routes and ADMIN_DOWN of an epoch (R271, R286). -/
def State.epochRoutes (s : State) : State :=
  let s := match s.fab.staged with
    | some r => { s with fab := { s.fab with route := some r, staged := none } }
    | none => s
  allPorts.foldl (fun s p =>
    let x := s.port p
    if x.adminDown then s.setLink p .disabled
    else if x.state = .disabled then s.setLink p .down
    else s) s

/-- A Face at an EPOCH_BEGIN (R94, R342, R345, R346). The row of R342 for more than 4 groups names READY and BYPASSED alone, so a FAULTY
Face that passed BIST_RUN returns to service whatever its groups (log entry 138). -/
def Face.epoch (x : Face) : Face :=
  let both := x.bypassMap ||| x.pendingMap
  let wide := 4 < popcount16 both
  let moved := if wide then x else { x with bypassMap := both, pendingMap := 0 }
  let up := fun (st : FaceSt) => if st = .ready ∧ moved.bypassMap ≠ 0 then FaceSt.bypassed else st
  match x.state with
  | .ready | .bypassed =>
    if x.retirePend then { x with state := .retired, cause := 0x05, retirePend := false }
    else if wide then { x with state := .faulty, cause := 0x04 }
    else { moved with state := up x.state, cause := if x.state = .ready ∧ moved.bypassMap ≠ 0 then 0x01 else x.cause }
  | .faulty =>
    if x.retirePend then { x with state := .retired, cause := 0x05, retirePend := false }
    else if x.bistPassed then
      { x with
        bypassMap := both, pendingMap := 0, state := if both = 0 then .ready else .bypassed, cause := if both = 0 then 0 else 1
        bistPassed := false }
    else moved
  | .testing => { moved with prior := up x.prior }
  | _ => x

/-- HBM_MAP at an EPOCH_BEGIN: PENDING leaves LIVE, MODE_NEXT takes effect, and the region whose mapping changed is zeroed (R256,
R257). The zeros stand from the boundary on; the zeroing ends at HBM_ZEROING_DONE (log entry 42). -/
def Mem.epoch (m : Mem) : Mem :=
  let m1 := { m with stackErrs := List.replicate 16 0 }
  if m.hbmPending = 0 ∧ m.modeNext = m.mode then m1
  else
    let m2 :=
      if m.modeNext ≠ m.mode ∨ !m.mode then m1.scrub 0 hbmEnd
      else (List.range 8).foldl (fun m d =>
        if m.hbmPending.getLsbD (2 * d) || m.hbmPending.getLsbD (2 * d + 1) then m.scrub (d * (96 * gib)) (96 * gib) else m) m1
    { m2 with hbmLive := m.hbmLive &&& ~~~m.hbmPending, hbmPending := 0, mode := m.modeNext, zeroing := true }

/-- A full epoch (R211). -/
def State.fullEpoch (s : State) : State :=
  let s := { s with cfg := { s.cfg with
    clockCur := s.cfg.clockNext, powerCur := s.cfg.powerNext, tpCur := s.cfg.tpNext, keeperForced := s.cfg.clockNext == 3 } }
  let s := ({ s with faces := s.faces.map Face.epoch, mem := s.mem.epoch, errs := { s.errs with alertP3 := false } }).syncRepairs
  let s := s.epochRoutes
  { s with tk := { s.tk with epochId := s.tk.epochId + 1, notice := s.newNotice } }

/-- A route epoch (R212). -/
def State.routeEpoch (s : State) : State :=
  let s := s.epochRoutes
  { s with
    tk := { s.tk with epochId := s.tk.epochId + 1, notice := s.newNotice }
    mem := { s.mem with stackErrs := List.replicate 16 0 } }

/-- Step 4 of R214: an EPOCH_BEGIN whose tick has come is taken, as a route epoch or in full as the Pit then stands, or refused
(log entry 43). -/
def State.takeEpoch (s : State) : State :=
  match s.sched.epoch with
  | none => s
  | some e =>
    if s.tk.tickCount.toNat ≠ e.at_ then s
    else
      let s := { s with sched := { s.sched with epoch := none } }
      match epochCheck s with
      | some r => s.finish e.tkt r.1 r.2
      | none =>
        if s.routeOnly then s.routeEpoch.finish e.tkt .ok []
        else { s.fullEpoch with sched := { s.fullEpoch.sched with clockLock := some e.tkt } }

/-- EPOCH_CLOCK_LOCK: the new clocks have locked, and EPOCH_BEGIN replies OK (R211). -/
def execEpochClockLock (s : State) : Result :=
  match s.sched.clockLock with
  | some t => .next ({ s with sched := { s.sched with clockLock := none } }.finish t .ok [])
  | none => .next s

/-! ### LAUNCH and HALT_AT (R219 to R221) -/

/-- HBM training is in progress (R341). -/
def State.training (s : State) : Bool :=
  s.pwr.dies != 0 && (List.range 16).any fun m => !s.pwr.trained.getLsbD m && decide (s.pwr.tries.getD m 0 < 2)

/-- CSR offset of the first setting that a loaded program does not match (R22, R94, R257, R346). -/
def State.progMismatch (s : State) (f : FaceId) (p : Prog) : Option Nat :=
  let x := s.face f
  ([if p.used && x.state == .retired then some (0x1000 + 8 * f.val) else none,
    if p.clockPlan ≠ s.cfg.clockCur then some 0x00C0 else none,
    if p.tickPeriod.toNat ≠ s.cfg.tpCur.toNat then some 0x0058 else none,
    if p.width.toNat ≠ x.width then some (0x1400 + 8 * f.val) else none,
    if p.hbmMode ≠ s.mem.mode ∨ p.hbmLive ≠ s.mem.hbmLive then some 0x01C0 else none] : List (Option Nat)).findSome? id

def State.launchMismatch (s : State) : Option Nat :=
  allFaces.findSome? fun f => match (s.face f).prog with | some p => s.progMismatch f p | none => none

/-- LAUNCH (R219), refused until an accepted EPOCH_BEGIN has replied (R211). ENTRY must be an entry of every loaded program (log entry 44). -/
def acceptLaunch : Accept := fun s pk t =>
  let entry := cmdArg pk 0 4
  answerIf (firstRefusal [
      refusal [
        (s.faces.all fun x => match x.prog with | some p => decide (entry < p.entries) | none => true, badArg 0),
        (cmdZero pk 4 28, badArg 4), (!(pk.execAt == 0 && decide (1 < s.pitSize)), badParam 16)],
      s.launchMismatch.map badStaged,
      refusal [
        (s.tk.run == .stopped, (.configBusy, [])),
        (s.sched.epoch.isNone && s.sched.clockLock.isNone && !s.mem.zeroing && !s.training, (.notReady, [])),
        (!(s.sched.commits.any fun c => c.entries.any StageEntry.lk), (.configBusy, []))]])
    (.later { s with
      tk := { s.tk with run := .armed }
      sched := { s.sched with launch := some { tkt := t, at_ := actTick s pk, entry := BitVec.ofNat 32 entry } } })

/-- The payload of R219 and R221: a cause and a tick. -/
def haltPayload (cause : BitVec 4) (tick : Nat) : List Byte := BitVec.ofNat 8 cause.toNat :: zeros 7 ++ leBytes 8 tick

/-- HALT_AT (R220). On a STOPPED module it changes nothing, and its payload names no halt (log entry 45). -/
def acceptHaltAt : Accept := fun s pk t =>
  if s.tk.run = .stopped then .done s .ok (haltPayload 0 0)
  else
    let h : PendHalt := ⟨t, actTick s pk⟩
    let s1 : State := { s with sched := { s.sched with haltAts := s.sched.haltAts ++ [h] } }
    .later (s1.schedHalt h.at_ 1 false)

/-- A pending LAUNCH is cancelled (R219). -/
def State.cancelLaunch (s : State) (cause : BitVec 4) (tick : Nat) : State :=
  match s.sched.launch with
  | some l => ({ s with sched := { s.sched with launch := none } }).finish l.tkt .notReady (haltPayload cause tick)
  | none => s

/-- Pending HALT_AT commands reply (R221). -/
def State.replyHalts (s : State) (cause : BitVec 4) (tick : Nat) : State :=
  let st := if cause = 2 ∨ cause = 3 then Status.tickOverrun else .ok
  s.sched.haltAts.foldl (fun s h => s.finish h.tkt st (haltPayload cause tick))
    { s with sched := { s.sched with haltAts := [] } }

/-- A Face still runs its program (R221). -/
def State.anyRunning (s : State) : Bool := s.faces.any (·.running)

/-- RUN_STATE becomes STOPPED and the pending HALT_ATs reply; `tick` is the halt boundary's. -/
def State.stopNow (s : State) (tick : Nat) : State :=
  ({ s with
    tk := { s.tk with run := .stopped, haltTaken := false }
    sched := { s.sched with halts := [] } }).replyHalts s.tk.cause tick

/-! ### READY_QUERY, ERR_READ, ERR_ACK, FACE_RETIRE -/

/-- READY_QUERY (R330). -/
def acceptReadyQuery : Accept := fun s _ _ =>
  .done s .ok (leBytes 8 s.readyMap ++ s.faces.map fun x => BitVec.ofNat 8 (x.stateReg % 256))

/-- Records of the log from an index, oldest first (R339). -/
def Errs.from_ (e : Errs) (idx n : Nat) : List Logged :=
  ((e.log.reverse.dropWhile fun l => l.seq % 2 ^ 32 != idx).take n)

/-- An index lies before the oldest record retained. Once SEQ has passed 2^32 the indexes wrap, and one up to 2^31 places before that
record is older (R339; log entry 150). -/
def Errs.older (e : Errs) (idx : Nat) : Bool :=
  match e.log.getLast? with
  | none => false
  | some l =>
    if e.lastSeq < 2 ^ 32 then decide (idx < l.seq)
    else decide (2 ^ 31 ≤ (idx + 2 ^ 32 - l.seq % 2 ^ 32) % 2 ^ 32)

/-- ERR_READ (R337, R339). -/
def acceptErrRead : Accept := fun s pk _ =>
  let src := cmdArg pk 0 1
  let n := cmdArg pk 1 1
  let idx := cmdArg pk 4 4
  answerIf (refusal [
      (decide (src ≤ 2), badArg 0), (decide (src < 2) || (decide (1 ≤ n) && decide (n ≤ 63)), badArg 1), (cmdZero pk 2 2, badArg 2),
      (decide (src < 2) || !s.errs.older idx, badArg 4), (cmdZero pk 8 24, badArg 8)])
    (.done s .ok (match src with
      | 0 => optBytes s.errs.primary
      | 1 => optBytes s.errs.secondary
      | _ => (s.errs.from_ idx n).flatMap Logged.bytes))

/-- MSI-X vector 64 where a record enters ERR_PRIMARY while the host link is up (R338). -/
def State.primaryIn (s : State) : State := if s.errs.primary.isSome && s.pwr.host then s.emit (.msix 64) else s

/-- ERR_ACK (R337). -/
def acceptErrAck : Accept := fun s pk _ =>
  let seq := cmdArg pk 0 8
  answerIf (refusal [
      (match s.errs.primary with | some l => l.seq == seq | none => false, badArg 0), (cmdZero pk 8 24, badArg 8)])
    (let e := s.errs
     let clear := e.secondary.isNone
     .done ({ s with errs := { e with
         primary := e.secondary, secondary := none, storm := e.storm && !clear, lostFatal := e.lostFatal && !clear } }).primaryIn
       .ok [])

/-- FACE_RETIRE (R346). -/
def acceptFaceRetire : Accept := fun s pk _ =>
  .done ((targetFaces pk.target).foldl (fun s f => s.updFace f fun x =>
    if x.state = .retired then x else { x with retirePend := true }) s) .ok []

end Sys2Proof.Machine
end

