-- ==== Sys2Proof/Machine/Disturb.lean ====
section
/-! DEFINITION. What a write or a read that no unit orders does to work under way: open add groups (R253), buckets between their first
fill mark and the end of their pass (R293), and the memory of a running program (R259, R313); with the sizes of a bucket (R289). -/

namespace Sys2Proof.Machine

/-! ### Sizes of a bucket (R289) -/

def RingFmt.bytes : RingFmt → Nat
  | .bp8 => 36 | .bp16 => 68 | .posit32 => 128 | .fragment => 256

def RingFmt.isBp (f : RingFmt) : Bool := f == .bp8 || f == .bp16

def wireOf (w : BitVec 2) : RingFmt :=
  match w.toNat with
  | 0 => .bp8 | 1 => .bp16 | 2 => .posit32 | _ => .fragment

def BucketDesc.fmt (d : BucketDesc) : RingFmt := wireOf d.wire
def BucketDesc.unitBytes (d : BucketDesc) : Nat := d.fmt.bytes
/-- U of R289. -/
def BucketDesc.units (d : BucketDesc) : Nat := (d.sizeQ.toNat + 1) * 262144 / d.unitBytes
def BucketDesc.quireBytes (d : BucketDesc) : Nat := 16 * 2 ^ d.qw.toNat
/-- Bytes of a unit at SRC. -/
def BucketDesc.srcBytes (d : BucketDesc) : Nat := if d.fmt = .fragment then 32 * d.quireBytes else d.unitBytes
/-- Bytes of a unit at DST: OUTFMT for quire-fragment buckets. -/
def BucketDesc.dstBytes (d : BucketDesc) : Nat :=
  if d.fmt = .fragment then (match d.outfmt.toNat with | 0 => 256 | 1 => 64 | 2 => 128 | _ => 68) else d.unitBytes
def BucketDesc.srcLen (d : BucketDesc) : Nat := d.units * d.srcBytes
def BucketDesc.dstLen (d : BucketDesc) : Nat := d.units * d.dstBytes

/-! ### Buckets of the module -/

def Coll.find (c : Coll) (id : BitVec 12) : Option Bucket := c.buckets.find? fun b => b.id == id

def State.bucket (s : State) (id : BitVec 12) : Option Bucket := s.coll.find id

def State.setBucket (s : State) (b : Bucket) : State :=
  { s with coll := { s.coll with buckets := s.coll.buckets.map fun x => if x.id = b.id then b else x } }

/-- An access to a range breaks R293: from the first fill mark on one to DST, and from the last on a write to SRC too. Where DST is SRC,
the writes that the fill marks cover reach it until the last mark. -/
def Bucket.spoils (b : Bucket) (write : Bool) (a n : Nat) : Bool :=
  let dst := meets a n b.desc.dst.toNat b.desc.dstLen
  let src := write && meets a n b.desc.src.toNat b.desc.srcLen
  match b.state with
  | .running | .prepass => dst || src
  | .filling => if b.full then dst || src else decide (0 < b.fills) && b.desc.dst != b.desc.src && dst
  | .unarmed => false

/-- A bucket whose rule R293 was broken: its delivered units are undefined. -/
def State.breakBucket (s : State) (b : Bucket) : State :=
  b.written.foldl (fun s u => s.freeFill (b.desc.dst.toNat + u * b.desc.dstBytes) b.desc.dstBytes) (s.setBucket { b with broken := true })

/-- An access of a program, of another module or of the host to a range meets the buckets. -/
def State.spoilBuckets (s : State) (write : Bool) (a n : Nat) : State :=
  (s.coll.buckets.filter fun b => !b.broken && b.spoils write a n).foldl State.breakBucket s

/-! ### Open add groups (R253) -/

/-- Targets of add groups that are open: those at the adders, and those that a loaded program opened to which no contribution has come. -/
def State.openTargets (s : State) : List (Nat × Nat) :=
  let atAdder := (s.mem.groups.filter fun g => !g.done).map (·.desc)
  let waited := if s.running then
      (s.faces.filterMap (·.prog)).flatMap fun p => (p.groups.filter fun g =>
        match lastOpen g s.tk.launchAt.toNat s.tk.tickCount.toNat with
        | some t => !s.mem.groups.any fun q => q.desc.target == g.desc.target && q.opened.toNat == t
        | none => false).map (·.desc)
    else []
  (atAdder ++ waited).map fun g => (g.target.toNat, groupBytes g)

/-- A write into the target of an open group leaves the target undefined. -/
def State.spoilTargets (s : State) (a n : Nat) : State :=
  (s.openTargets.filter fun r => meets a n r.1 r.2).foldl (fun s r => s.freeFill r.1 r.2) s

/-- A write of `n` bytes at `a` by a mover or by another module. -/
def State.disturb (s : State) (a n : Nat) : State := (s.spoilTargets a n).spoilBuckets true a n

/-! ### Memory of a running program (R259, R313) -/

/-- The parts of a range that a running program uses: address and length. -/
def State.inUse (s : State) (a n : Nat) : List (Nat × Nat) :=
  if s.running then
    (s.faces.filterMap (·.prog)).flatMap fun p => (p.uses.filter fun r => meets a n r.1 r.2).map fun r => (Nat.max a r.1, shared a n r.1 r.2)
  else []

/-- A write of the host or of a memory command: where a running program uses the range, the outcome is undefined. -/
def State.hostWrite (s : State) (a n : Nat) : State := (s.inUse a n).foldl (fun s r => s.freeFill r.1 r.2) (s.disturb a n)

end Sys2Proof.Machine
end

