-- ==== Sys2Proof/Machine/MemCmd.lean ====
section
/-! DEFINITION. Memory commands (R256, R259), refresh and patrol (R246, R258), the stack error limit (R256), and the adders in memory
with their add groups (R251 to R255). -/

namespace Sys2Proof.Machine

/-! ### Copies and their marks (R248) -/

/-- Destination granules of the marked source granules of a copy. -/
def carriedMarks (gs : List Nat) (src dst n : Nat) : List Nat :=
  gs.flatMap fun g =>
    let lo := Nat.max g src
    let hi := Nat.min (g + granSize g) (src + n)
    grans (dst + (lo - src)) (hi - lo)

/-- A copy of `n` bytes of device memory, read by unit `u`, with its marks. -/
def State.copyMem (s : State) (u : EUnit) (src dst n : Nat) : State :=
  let gs := s.mem.markedIn src n
  let data := s.mem.bytes src n
  let s1 := s.noteReads u [(src, n)]
  { s1 with mem := s1.mem.writeBytes dst data (carriedMarks gs src dst n) }

/-! ### MEM_COPY, MEM_FILL, MEM_SCRUB -/

/-- A range of device memory as these commands take it (R324). -/
def State.memRangeOk (s : State) (a n : Nat) : Bool :=
  if n = 0 then (s.mem.region a).isMem && !(decide (spBase ≤ a) && decide (a < pileBase)) else s.mem.cmdRangeOk a n

/-- A range such a command may write (R242). -/
def State.memWriteOk (s : State) (a n : Nat) : Bool :=
  s.memRangeOk a n && (n == 0 || !touchesFixed s.strm.slotK.toNat a n)

/-- The command runs; its reply comes at MEM_COMMAND_DONE with what R249 reports. -/
def State.startMem (s : State) (t : Ticket) (gs : List Nat) : State :=
  let job : MemJob := ⟨t, gs.head?, gs.length⟩
  { s with mem := { s.mem with jobs := s.mem.jobs ++ [job] } }

/-- The overlap of a copy's source and destination, which the manual leaves open (log entry 47). -/
def overlap (src dst n : Nat) : Nat × Nat :=
  let lo := Nat.max src dst
  let hi := Nat.min (src + n) (dst + n)
  if src = dst then (0, 0) else (lo, hi - lo)

/-- What a copy of a range that a running program uses brings: undefined bytes at their places in the destination (R259). -/
def State.copyInUse (s : State) (src dst n : Nat) : State :=
  (s.inUse src n).foldl (fun t r => t.freeFill (dst + (r.1 - src)) r.2) s

/-- MEM_COPY's effect; a host address reads and writes the host's memory. -/
def State.memCopy (s : State) (src dst n : Nat) (srcHost dstHost : Bool) : State :=
  let toHost := fun (s : State) (b : List Byte) => { s with host := { s.host with hostMem := Cells.write s.host.hostMem dst b } }
  match srcHost, dstHost with
  | true, true => toHost s (Cells.read s.host.hostMem src n)
  | true, false => ({ s with mem := s.mem.writeBytes dst (Cells.read s.host.hostMem src n) [] }).hostWrite dst n
  | false, true => (toHost s (s.mem.bytes src n)).noteReads .hub [(src, n)]
  | false, false =>
    let s1 := s.copyMem .hub src dst n
    let (a, k) := overlap src dst n
    ((if k = 0 then s1 else s1.freeFill a k).copyInUse src dst n).hostWrite dst n

/-- MEM_COPY (R259). -/
def acceptMemCopy : Accept := fun s pk t =>
  let src := cmdArg pk 0 8
  let dst := cmdArg pk 8 8
  let n := cmdArg pk 16 8
  let fl := cmdArg pk 24 1
  answerIf (refusal [
      (decide (src % 64 = 0), badArg 0), (decide (dst % 64 = 0), badArg 8), (decide (n % 64 = 0), badArg 16),
      (decide (fl < 4), badArg 24), (cmdZero pk 25 7, badArg 25), (bit fl 0 || s.memRangeOk src n, badArg 0),
      (bit fl 1 || s.memWriteOk dst n, badArg 8)])
    (.later ((s.memCopy src dst n (bit fl 0) (bit fl 1)).startMem t (if bit fl 0 then [] else s.mem.markedIn src n)))

/-- MEM_FILL (R259): PATTERN repeated over the range. -/
def acceptMemFill : Accept := fun s pk t =>
  let dst := cmdArg pk 0 8
  let n := cmdArg pk 8 8
  let pat := leBytes 8 (cmdArg pk 16 8)
  answerIf (refusal [
      (decide (dst % 64 = 0), badArg 0), (decide (n % 64 = 0), badArg 8), (cmdZero pk 24 8, badArg 24), (s.memWriteOk dst n, badArg 0)])
    (.later (({ s with mem := s.mem.writeBytes dst ((List.replicate (n / 8) pat).flatten) [] }.hostWrite dst n).startMem t []))

/-- MEM_SCRUB (R259). -/
def acceptMemScrub : Accept := fun s pk t =>
  let a := cmdArg pk 0 8
  let n := cmdArg pk 8 8
  answerIf (refusal [
      (decide (a % 64 = 0), badArg 0), (decide (n % 64 = 0), badArg 8), (cmdZero pk 16 16, badArg 16), (s.memWriteOk a n, badArg 0)])
    (.later (({ s with mem := s.mem.scrub a n }.hostWrite a n).startMem t []))

/-- MEM_COMMAND_DONE: the memory command of a key replies (R249, R259). -/
def State.memDone (s : State) (key : CmdKey) : State :=
  match s.mem.jobs.find? fun j => j.tkt.key == key with
  | none => s
  | some j =>
    let s1 : State := { s with mem := { s.mem with jobs := s.mem.jobs.filter fun x => x.tkt.key ≠ key } }
    match j.first with
    | none => s1.finish j.tkt .ok []
    | some a => s1.finish j.tkt .memPoisoned (leBytes 8 a ++ leBytes 4 j.count)

def execMemCommandDone (key : CmdKey) (s : State) : Result := .next (s.memDone key)

/-! ### Stack retirement (R256) -/

/-- A stack's bit in HBM_MAP.PENDING is set, with its record; nothing for a stack that is out of the map or already pending. -/
def State.stackOut (s : State) (m : Nat) (reason : Byte) : State :=
  if s.mem.hbmLive.getLsbD m && !s.mem.hbmPending.getLsbD m then
    let s1 : State := { s with mem := { s.mem with hbmPending := s.mem.hbmPending ||| BitVec.ofNat 16 (2 ^ m) } }
    s1.raise 0x0105 (.stack m) 0 [reason]
  else s

/-- MEM_RETIRE (R256). -/
def acceptMemRetire : Accept := fun s pk _ =>
  answerIf (refusal [(decide (cmdArg pk 0 1 < 16), badArg 0), (cmdZero pk 1 31, badArg 1)])
    (.done (s.stackOut (cmdArg pk 0 1) 3) .ok [])

/-- STACK_ERROR_LIMIT: more than 16 uncorrectable words in the epoch (R256). -/
def execStackErrorLimit (m : StackId) (s : State) : Result :=
  .next (if 16 < s.mem.stackErrs.getD m.val 0 then s.stackOut m.val 2 else s)

/-- HBM_ZEROING_DONE (R256). -/
def execHbmZeroingDone (s : State) : Result := .next { s with mem := { s.mem with zeroing := false } }

/-- REFRESH_SLOT: cells keep what they hold, and only time passes (R246). -/
def execRefreshSlot (_ : DieId) (s : State) : Result := .next s

/-- PATROL_SCRUB reads one granule (R258): an error that no read has found is handled as at any read, and a poisoned granule stays
poisoned. Every poison in memory has been reported: at the read that found the error, or, for a copy, at that of its source (R248). -/
def State.patrol (s : State) (addr : Nat) : State :=
  let g := gran addr
  let u : EUnit := match s.mem.region g with
    | .scratchpad f _ => .face f
    | .stockpile d _ => .die d
    | .hbm m _ => .stack m
    | _ => .module
  if (s.mem.region g).isMem then s.noteReads u [(g, granSize g)] else s

def execPatrolScrub (addr : DevAddr) (s : State) : Result := .next (s.patrol addr.toNat)

/-! ### Memory-side adders (R251 to R255) -/

/-- The element sum, with NaR for a marked operand (R251, R254, R300). -/
def addElem (fmt : AddFmt) (a b : Nat) (marked : Bool) : Nat :=
  let w := 8 * addSize fmt
  if marked then 2 ^ (w - 1)
  else if addRounded fmt then positEncode w (Val.map2 (· + ·) (positDecode w a) (positDecode w b))
  else quireAdd w a b

/-- The unit that adds: the HBM controller or the Stockpile of the target. -/
def State.adderUnit (s : State) (a : Nat) : EUnit :=
  match s.mem.region a with
  | .stockpile d _ => .die d
  | .hbm m _ => .stack m
  | _ => .module

/-- One element of a contribution added into the target. -/
def State.addOne (s : State) (g : GroupDesc) (c : Contribution) (i : Nat) : State :=
  let n := addSize g.fmt
  let a := g.target.toNat + i * n
  let v := addElem g.fmt (s.mem.nat a n) (leAt c.data (i * n) n) (s.mem.marked a n || c.marks.contains i)
  let s1 := s.noteReads (s.adderUnit a) [(a, n)]
  { s1 with mem := s1.mem.writeBytes a (leBytes n v) [] }

/-- A whole contribution added into the target. -/
def State.addAll (s : State) (g : GroupDesc) (c : Contribution) : State :=
  (List.range g.count).foldl (fun s i => s.addOne g c i) s

/-- Canonical order of contributions: Pit rank, then tag (R252). -/
def contribBefore (a b : Contribution) : Bool := decide (a.rank < b.rank) || (a.rank == b.rank && decide (a.tag.toNat ≤ b.tag.toNat))

def canonInsert (c : Contribution) : List Contribution → List Contribution
  | [] => [c]
  | x :: r => if contribBefore x c then x :: canonInsert c r else c :: x :: r

def canonOrder (l : List Contribution) : List Contribution := l.foldl (fun o c => canonInsert c o) []

/-- Adds that took another contribution than the next one in canonical order (R228, R252). -/
def deviations : List Contribution → List Contribution → Nat
  | [], _ => 0
  | c :: r, order => b2n (order.head? != some c) + deviations r (order.erase c)

/-- Whether a contribution is staged rather than added on arrival (R252). -/
def State.stages (s : State) (g : GroupDesc) : Bool := addRounded g.fmt && !s.cfg.fast

/-- The group of a contribution: the one its source opened for the target in the same tick. -/
def AddGroup.takes (g : AddGroup) (c : Contribution) : Bool := g.desc.target == c.group.target && g.opened == c.opened

def State.setGroup (s : State) (g : AddGroup) : State :=
  { s with mem := { s.mem with
      groups := s.mem.groups.map fun x => if x.desc.target == g.desc.target && x.opened == g.opened then g else x } }

/-- A contribution arrives at its adder (R252). Outside a run, and for a group of an earlier run, it is discarded (R255). -/
def State.addContribution (s : State) (c : Contribution) : State :=
  if !s.running || s.tk.haltTaken || decide (c.opened.toNat < s.tk.launchAt.toNat) then s
  else
    let s := if s.mem.groups.any fun x => x.takes c then s
      else { s with mem := { s.mem with groups := s.mem.groups ++ [⟨c.group, c.opened, [], 0, false⟩] } }
    match s.mem.groups.find? fun x => x.takes c with
    | none => s
    | some g =>
      if g.desc.n ≤ g.got.length then
        (s.setGroup { g with excess := g.excess + 1 }).raise 0x0104 (s.adderUnit g.desc.target.toNat) 0 (leBytes 8 g.desc.target.toNat)
      else
        let s := (s.setGroup { g with got := g.got ++ [c] }).spoilBuckets true g.desc.target.toNat (groupBytes g.desc)
        if s.stages g.desc then s.freeFill g.desc.stage.toNat g.desc.stageBytes else s.addAll g.desc c

/-- ADD_CONTRIBUTION: a packet of KIND 0x02; the last of a contribution brings it whole (log entry 84). -/
def execAddContribution (pkt : Packet) (s : State) : Result :=
  .next (s.onArrival pkt 0x02 fun s => match pkt.load with | some (.add c) => s.addContribution c | _ => s)

/-- ADD_GROUP_COMPLETE: all N contributions of a group on the target have arrived (R252). -/
def State.groupComplete (s : State) (target : DevAddr) : State :=
  match s.mem.groups.find? fun g => g.desc.target == target && !g.done && decide (g.desc.n ≤ g.got.length) with
  | none => s
  | some g =>
    let order := canonOrder g.got
    let s := s.setGroup { g with done := true }
    if s.stages g.desc then order.foldl (fun s c => s.addAll g.desc c) s
    else if addRounded g.desc.fmt then
      { s with tk := { s.tk with odcModule := satAdd 32 s.tk.odcModule (deviations g.got order) } }
    else s

def execAddGroupComplete (target : DevAddr) (s : State) : Result := .next (s.groupComplete target)

/-- Groups are discarded with the run (R255). -/
def State.dropGroups (s : State) : State := { s with mem := { s.mem with groups := [] } }

end Sys2Proof.Machine
end

