-- ==== Sys2Proof/Machine/Streams.lean ====
section
/-! DEFINITION. The stream service: slots, spill and entries (R185 to R191), the stream commands (R192 to R197), chunks, lifts and
dispatch (R198 to R200, R207), exports, state records and imports (R201 to R205). -/

namespace Sys2Proof.Machine

/-! ### Cell descriptors (R172) -/

/-- Offset of the first field of a cell descriptor that R172 forbids. -/
def cellFault (b : List Byte) : Option Nat :=
  let by_ := fun i => leAt b i 1
  let fam := bits (by_ 1) 3 0
  let gated := fam == 1
  let io := fun c => decide (1 ≤ c ∧ c ≤ 3)
  let range := fun lo hi v => decide (lo ≤ v ∧ v ≤ hi)
  (([(decide (1 ≤ fam ∧ fam ≤ 3) && bits (by_ 1) 7 4 == 0, 1),
    ((if gated then range 1 4 (bits (by_ 2) 2 0) && range 1 4 (bits (by_ 2) 5 3) else bits (by_ 2) 5 0 == 0) && bits (by_ 2) 7 6 == 0, 2),
    (if gated then by_ 3 == 0 else range 1 16 (by_ 3), 3), (decide (leAt b 4 2 ≠ 0), 4),
    (if gated then by_ 6 == 0 else range 1 16 (by_ 6), 6), (io (bits (by_ 7) 3 0) && io (bits (by_ 7) 7 4), 7),
    (if gated then by_ 8 == 2 || by_ 8 == 3 else by_ 8 == 3, 8), (decide (by_ 10 < 4), 10), (zeroAt b 11 21, 11)] :
    List (Bool × Nat)).find? fun c => !c.1).map (·.2)

def cellZeroInit (b : List Byte) : Bool := bit (leAt b 10 1) 1
def cellResetOk (b : List Byte) : Bool := bit (leAt b 10 1) 0
def cellLmax (b : List Byte) : Nat := leAt b 9 1
/-- Bits of a state value (R172 STATE_FMT). -/
def cellStateBits (b : List Byte) : Nat := if leAt b 8 1 = 2 then 16 else 32

/-! ### Entries (R190) and their place (R187, R188) -/

def StreamEnt.slot (e : StreamEnt) : Nat := bits e.handle.toNat 12 0

/-- Where the state of record lies: the slot, or the spilled granules. -/
def StreamEnt.addr (e : StreamEnt) : Nat :=
  match e.spill with
  | some a => a.toNat
  | none => pileBase + e.die * pileSize + 0x80000 + e.slot * 0x8000

def StreamSt.code : StreamSt → Nat
  | .open_ => 1 | .active => 2 | .paused => 3 | .exporting => 4 | .moved => 5

/-- Queue places in use: the requests with a chunk that has not been dispatched; one that a halt returned has been (R190, R200). -/
def StreamEnt.places (e : StreamEnt) : Nat := (e.queue.filter fun r => decide (b2n r.redo.isSome < r.todo.length)).length

/-- The stream entry of R190. -/
def StreamEnt.bytes (e : StreamEnt) : List Byte :=
  [BitVec.ofNat 8 (e.state.code + 8 * b2n e.spill.isSome + 16 * b2n e.aidOver + 32 * b2n e.narPresent), BitVec.ofNat 8 e.places,
    e.svcL, BitVec.ofNat 8 (b2n e.svcValid)] ++ leBytes 4 e.incarn.toNat ++ leBytes 8 (crc64 e.cell).toNat
    ++ leBytes 8 e.stepCount.toNat ++ leBytes 4 e.chunks.toNat ++ leBytes 2 e.pit.toNat ++ [e.lastL, 0]
    ++ leBytes 8 (match e.spill with | some a => a.toNat | none => 0) ++ leBytes 4 e.carryBytes ++ leBytes 4 e.initBytes
    ++ leBytes 8 e.lastDisp.toNat ++ zeros 8

/-- Address of an entry in the stream table (R187, R242). -/
def StreamEnt.tableAddr (e : StreamEnt) : Nat := pileBase + e.die * pileSize + 64 * e.slot

/-- A stream's entry is replaced, in the Derrick and in the stream table. -/
def State.putStream (s : State) (e : StreamEnt) : State :=
  { s with
    strm := { s.strm with ents := s.strm.ents.map fun x => if x.handle = e.handle then e else x }
    mem := s.mem.writeBytes e.tableAddr e.bytes [] }

/-- A slot and its spill granules are free again; the entry of a free slot reads 0 (log entry 49). -/
def State.freeStream (s : State) (e : StreamEnt) : State :=
  { s with
    strm := { s.strm with ents := s.strm.ents.filter fun x => x.handle ≠ e.handle }
    mem := s.mem.writeBytes e.tableAddr (zeros 64) [] }

def State.streamOf (s : State) (h : BitVec 16) : Option StreamEnt := s.strm.ents.find? fun e => e.handle == h

/-! ### Allocation (R187, R188) -/

def State.slotCount (s : State) : Nat := 512 * s.strm.slotK.toNat
def State.usedSlots (s : State) (d : Nat) : List Nat := (s.strm.ents.filter fun e => e.die == d).map StreamEnt.slot

/-- The named die, or with ANY_DIE the one with the most free slots, the lowest on ties. -/
def State.pickDie (s : State) (t : Nat) : Nat :=
  if bit t 3 then
    (List.range 8).foldl (fun b d => if (s.usedSlots d).length < (s.usedSlots b).length then d else b) 0
  else t % 8

def State.pickSlot (s : State) (d : Nat) : Option Nat := (List.range s.slotCount).find? fun i => !(s.usedSlots d).contains i

/-- Spilled allocations of a die: address and bytes. -/
def State.spills (s : State) (d : Nat) : List (Nat × Nat) :=
  s.strm.ents.filterMap fun e => if e.die = d then e.spill.map fun a => (a.toNat, e.spillBytes) else none

/-- Contiguous granules in the die's pool: the lowest that are free (log entry 50). -/
def State.pickSpill (s : State) (d n : Nat) : Option Nat :=
  let (size, base) := s.strm.spill.getD d (0, 0)
  let need := ceilDiv n 65536
  ((List.range (size.toNat + 1 - need)).find? fun i =>
    let a := base.toNat * 65536 + i * 65536
    !(s.spills d).any fun x => decide (x.1 < a + need * 65536) && decide (a < x.1 + x.2)).bind fun i =>
      if size = 0 then none else some (base.toNat * 65536 + i * 65536)

/-- NOT_READY with the reason in payload byte 0. -/
def allocRefuse (why : Byte) : Refuse := (.notReady, why :: zeros 7)

/-- A handle and, where the state spills, its address; or the refusal. -/
def State.allocate (s : State) (target n : Nat) : Except Refuse (BitVec 16 × Option DevAddr) :=
  let d := s.pickDie target
  match s.pickSlot d with
  | none => .error (allocRefuse 1)
  | some i =>
    let h := BitVec.ofNat 16 (d * 8192 + i)
    if n ≤ 32768 then .ok (h, none)
    else
      match s.pickSpill d n with
      | none => .error (allocRefuse 2)
      | some a => .ok (h, some (BitVec.ofNat 64 a))

/-- An accepted commit with a SLOT_K entry waits for its boundary (R189). -/
def State.slotKWaits (s : State) : Bool := s.sched.commits.any fun c => c.entries.any StageEntry.slotK

/-- A new stream's entry, with the next incarnation; 0 is never assigned (R185). -/
def State.newStream (s : State) (e : StreamEnt) : State × StreamEnt :=
  let e := { e with incarn := s.strm.incarn, pit := s.pit.id }
  let next := if s.strm.incarn + 1 = 0 then 1 else s.strm.incarn + 1
  (({ s with strm := { s.strm with ents := s.strm.ents ++ [e], incarn := next } }).putStream e, e)

def blankStream (h : BitVec 16) (spill : Option DevAddr) (cell : List Byte) (c i : Nat) : StreamEnt :=
  { handle := h, incarn := 0, state := .open_, aidOver := false, narPresent := false, svcL := 0, svcValid := false, cell := cell
    stepCount := 0, chunks := 0, pit := 0, lastL := 0, spill := spill, carryBytes := c, initBytes := i, lastDisp := 0, queue := []
    flight := [], waiting := [], closing := false, exports := [], lastRec := none }

/-- The reply payload of R193. -/
def StreamEnt.ident (e : StreamEnt) : List Byte := leBytes 2 e.handle.toNat ++ zeros 2 ++ leBytes 4 e.incarn.toNat

/-- The state of record holds a NaR, or a poisoned value, which reads as NaR (R177, R190). -/
def State.stateNar (s : State) (e : StreamEnt) : Bool :=
  let n := e.carryBytes + e.initBytes
  let w := cellStateBits e.cell / 8
  s.mem.marked e.addr n || (List.range (n / w)).any fun i => s.mem.nat (e.addr + i * w) w == narBits (8 * w)

/-! ### STREAM_OPEN (R193) -/

/-- The sizes of R188. -/
def sizesOk (c i : Nat) : Bool := decide (c % 64 = 0) && decide (i % 64 = 0) && decide (c + i ≤ 2 ^ 26)

def acceptStreamOpen : Accept := fun s pk _ =>
  let cell := (cmdParams pk).take 32
  let c := cmdArg pk 32 4
  let i := cmdArg pk 36 4
  let a := cmdArg pk 40 8
  let zero := cellZeroInit cell
  answerIf (firstRefusal [
      refusal [(leAt cell 0 1 == 0x20, badArtefact)],
      (cellFault cell).map badArg,
      refusal [
        (decide (cmdArg pk 49 1 < 2), badArg 49), (cmdZero pk 50 14, badArg 50),
        (decide (c % 64 = 0 ∧ c + i ≤ 2 ^ 26), badArg 32), (i == (if zero then 0 else c), badArg 36),
        (zero || i == 0 || s.mem.rangeOk a i, badArg 40),
        (cmdArg pk 49 1 == 0 || decide (cmdArg pk 48 1 ≤ cellLmax cell), badArg 48), (!s.slotKWaits, (.configBusy, []))]])
    (match s.allocate pk.target.toNat (c + i) with
      | .error r => .refuse r
      | .ok (h, spill) =>
        let e0 := { blankStream h spill cell c i with svcL := BitVec.ofNat 8 (cmdArg pk 48 1), svcValid := cmdArg pk 49 1 == 1 }
        let gs := if zero then [] else s.mem.markedIn a i
        let s1 : State := { s with mem := s.mem.scrub e0.addr c }
        let s2 := if zero then s1 else (s1.copyMem .hub a e0.addr i).copyMem .hub a (e0.addr + c) i
        let (s3, e) := s2.newStream { e0 with narPresent := s2.stateNar e0 }
        if gs.isEmpty then .done s3 .ok e.ident else .done s3 .memPoisoned (poisonPayload gs))

/-! ### Finding a stream (R186) -/

def withStream (s : State) (pk : CmdPacket) (k : StreamEnt → Answer) : Answer :=
  match s.strm.ents.find? fun e => e.handle == pk.target.setWidth 16 && !e.closing with
  | none => .refuse (.streamUnknown, [])
  | some e =>
    if e.incarn ≠ BitVec.ofNat 32 (bits pk.target.toNat 47 16) then .refuse (.streamUnknown, [])
    else if e.pit ≠ cmdPit pk then .refuse (.pitDenied, [])
    else k e

/-! ### Lifts (R198) -/

/-- Lifts of the serving programs loaded on a die; a program loaded on several Faces counts once (log entry 51). -/
def State.lifts (s : State) (d : Nat) : List Lift :=
  (((s.faces.drop (12 * d)).take 12).foldl (fun (acc : List (BitVec 64) × List Lift) x =>
    match x.prog with
    | some p => if acc.1.contains p.digest then acc else (p.digest :: acc.1, acc.2 ++ p.lifts)
    | none => acc) ([], [])).2

/-! ### STREAM_CHUNK (R195, R196, R199) -/

/-- The cuts of n steps into pieces of at most l: start and length. -/
def cutsOf : Nat → Nat → Nat → Nat → List (Nat × Nat)
  | 0, _, _, _ => []
  | fuel + 1, at_, n, l => if n = 0 then [] else (at_, Nat.min l n) :: cutsOf fuel (at_ + l) (n - Nat.min l n) l

/-- One chunk of a request: its rows, its marks and where its outputs go. -/
def chunkOf (pk : CmdPacket) (e : StreamEnt) (cut : Nat × Nat) : Chunk :=
  let fl := cmdArg pk 2 1
  let rin := Config.inRowBytes e.cell
  let (start, len) := cut
  { len := len, inAddr := BitVec.ofNat 64 (if bit fl 0 then 0 else cmdArg pk 8 8 + start * rin)
    inline_ := if bit fl 0 then ((cmdParams pk).drop (96 + start * rin)).take (len * rin) else []
    outAddr := BitVec.ofNat 64 (cmdArg pk 16 8 + start * Config.outRowBytes e.cell)
    resets := (List.range len).filter fun m => decide (start + m < 256) && bit (cmdArg pk 24 32) (start + m)
    stateOut := if bit fl 2 then some (BitVec.ofNat 64 (cmdArg pk 56 8)) else none }

/-- An address of HBM or of a Stockpile, with the bytes that follow it (R196). -/
def State.storeOk (s : State) (a n : Nat) : Bool := s.mem.cmdRangeOk a (Nat.max n 1)

/-- A range that a chunk writes: outside the Derrick's own regions too (R242). -/
def State.storeWriteOk (s : State) (a n : Nat) : Bool := s.storeOk a n && !touchesFixed s.strm.slotK.toNat a (Nat.max n 1)

def chunkForm (pk : CmdPacket) : Option Refuse :=
  let fl := cmdArg pk 2 1
  let split := bit fl 1
  refusal [
    (cmdArg pk 0 1 == 0x20, badArtefact), (!split || cmdArg pk 1 1 == 0, badArg 1), (decide (fl < 8), badArg 2),
    (cmdZero pk 3 1, badArg 3), (split || cmdArg pk 4 4 == 0, badArg 4), (!bit fl 0 || cmdArg pk 8 8 == 0, badArg 8),
    (bit fl 2 || cmdArg pk 56 8 == 0, badArg 56), (cmdZero pk 64 32, badArg 64)]

def chunkRefusal (s : State) (pk : CmdPacket) (e : StreamEnt) : Option Refuse :=
  let fl := cmdArg pk 2 1
  let inl := bit fl 0
  let split := bit fl 1
  let len := if split then e.svcL.toNat + 1 else cmdArg pk 1 1 + 1
  let n := if split then cmdArg pk 4 4 else len
  let rmap := cmdArg pk 24 32
  let rows := n * Config.inRowBytes e.cell
  refusal [
    (decide (len ≤ cellLmax e.cell + 1), badArg 1), (!split || e.svcValid, badArg 2), (!split || decide (n ≠ 0), badArg 4),
    (decide (rmap < 2 ^ n), badArg 24), (rmap == 0 || cellResetOk e.cell, badArg 24),
    (decide (pk.plen.toNat = 96 + (if inl then ceilDiv rows 32 * 32 else 0)), badParam 24),
    (inl || s.storeOk (cmdArg pk 8 8) rows, badArg 8),
    (s.storeWriteOk (cmdArg pk 16 8) (n * Config.outRowBytes e.cell), badArg 16),
    (!bit fl 2 || s.storeWriteOk (cmdArg pk 56 8) e.carryBytes, badArg 56),
    ((s.lifts e.die).any fun l => l.digest == crc64 e.cell, badParam 8),
    (e.state != .exporting && e.state != .moved, (.streamMoved, [])), (decide (e.places < 16), (.configBusy, []))]

def acceptStreamChunk : Accept := fun s pk t =>
  answerIf (chunkForm pk) (withStream s pk fun e =>
    answerIf (chunkRefusal s pk e)
      (let split := bit (cmdArg pk 2 1) 1
       let cuts := if split then cutsOf (cmdArg pk 4 4) 0 (cmdArg pk 4 4) (e.svcL.toNat + 1) else [(0, cmdArg pk 1 1 + 1)]
       let req : ChunkReq := ⟨t, s.tk.tickCount.toNat, split, cuts.map (chunkOf pk e), 0, [], none⟩
       .later (s.putStream { e with
         queue := e.queue ++ [req], state := if e.state = .open_ then .active else e.state })))

/-! ### STREAM_PAUSE, STREAM_RESUME, STREAM_CLOSE, STREAM_QUERY (R192, R194) -/

def State.owe (s : State) (ts : List Ticket) : State := { s with strm := { s.strm with owed := s.strm.owed ++ ts } }

/-- A reply due at the first boundary after the dispatched chunk completes. -/
def State.afterFlight (s : State) (e : StreamEnt) (t : Ticket) : State :=
  if e.flight.isEmpty then (s.putStream e).owe [t] else s.putStream { e with waiting := e.waiting ++ [t] }

def acceptStreamPause : Accept := fun s pk t =>
  withStream s pk fun e =>
    match e.state with
    | .exporting => .refuse (.configBusy, [])
    | .moved => .refuse (.streamMoved, [])
    | _ => .later (s.afterFlight { e with state := .paused } t)

def acceptStreamResume : Accept := fun s pk _ =>
  withStream s pk fun e =>
    match e.state with
    | .exporting => .refuse (.configBusy, [])
    | .paused | .moved => .done (s.putStream { e with state := .active }) .ok []
    | _ => .done s .ok []

/-- The request whose chunk is in flight. -/
def StreamEnt.flies (e : StreamEnt) (r : ChunkReq) : Bool := e.flight.any fun x => x.tkt == r.tkt

/-- Requests go back to their senders. -/
def State.returnReqs (s : State) (rs : List ChunkReq) (st : Status) : State :=
  rs.foldl (fun s r => s.finish r.tkt st (if r.split && st == .streamMoved then leBytes 4 r.done else [])) s

/-- An export that the stream's end cuts off (R192; log entry 52). -/
def State.dropExports (s : State) (es : List Export) : State := es.foldl (fun s x => s.finish x.tkt .streamUnknown []) s

def acceptStreamClose : Accept := fun s pk t =>
  withStream s pk fun e =>
    if e.state = .exporting then .refuse (.configBusy, [])
    else
      let s1 := s.returnReqs (e.queue.filter fun r => !e.flies r) .streamUnknown
      let s2 := s1.dropExports e.exports
      if e.flight.isEmpty then .later ((s2.freeStream e).owe (e.waiting ++ [t]))
      else .later (s2.putStream { e with
        queue := e.queue.filter e.flies, closing := true, exports := [], waiting := e.waiting ++ [t] })

def acceptStreamQuery : Accept := fun s pk _ => withStream s pk fun e => .done s .ok e.bytes

/-! ### Chunks complete (R198, R207, R208) -/

/-- A reply to a chunk is formed, with its completion tick; it leaves at the next boundary (R208). -/
def State.form (s : State) (t : Ticket) (cmp : BitVec 32) (st : Status) (payload : List Byte) : State :=
  { s with strm := { s.strm with formed := s.strm.formed ++ [(t, cmp, st, payload)] } }


/-- The carried state and the outputs are written (R195, R198). -/
def State.storeChunk (s : State) (e : StreamEnt) (c : Chunk) (carry outs : List Byte) : State :=
  let st := padTo e.carryBytes carry
  let m1 := s.mem.writeBytes c.outAddr.toNat outs []
  let m2 := m1.writeBytes e.addr st []
  { s with mem := match c.stateOut with | some a => m2.writeBytes a.toNat st [] | none => m2 }

/-- How a request stands after one more of its chunks: it is done, it returns, or it goes on. -/
def reqReply (e : StreamEnt) (r : ChunkReq) : Option (Status × List Byte) :=
  if r.todo.isEmpty then some (.ok, if r.outs.length ≤ 4048 then r.outs else [])
  else if e.closing then some (.streamUnknown, [])
  else if e.state = .exporting then some (.streamMoved, leBytes 4 r.done)
  else none

/-- The in-flight chunk `x` of stream `e` completes. -/
def State.completeChunk (s : State) (e : StreamEnt) (x : InFlight) (carry outs : List Byte) : State :=
  match e.queue.find? fun r => r.tkt == x.tkt with
  | none => s
  | some r =>
    let s1 := s.storeChunk e x.chunk carry outs
    let r1 := { r with done := r.done + x.chunk.len, outs := r.outs ++ outs, redo := none }
    let rep := reqReply e r1
    let e1 := { e with
      stepCount := e.stepCount + BitVec.ofNat 64 x.chunk.len, chunks := e.chunks + 1, lastL := BitVec.ofNat 8 (x.chunk.len - 1)
      narPresent := s1.stateNar e, flight := []
      queue := (if rep.isSome then e.queue.filter fun (q : ChunkReq) => q.tkt ≠ x.tkt
        else e.queue.map fun (q : ChunkReq) => if q.tkt = x.tkt then r1 else q)
      waiting := [], exports := e.exports.map fun (y : Export) => if y.record.isNone then { y with at_ := s.tk.tickCount.toNat } else y }
    let s2 := (if e1.closing then s1.freeStream e1 else s1.putStream e1).owe e.waiting
    match rep with
    | some (st, p) => s2.form r.tkt (BitVec.ofNat 32 x.doneAt) st p
    | none => s2

/-- CHUNK_COMPLETE: the serving program has finished the stream's dispatched chunk, not before the end of its span. -/
def State.chunkComplete (s : State) (h : BitVec 16) (carry outs : List Byte) : State :=
  match s.streamOf h with
  | none => s
  | some e =>
    match e.flight with
    | [] => s
    | x :: _ => if x.doneAt ≤ s.tk.tickCount.toNat ∧ s.running then s.completeChunk e x carry outs else s

def execChunkComplete (h : BitVec 16) (carry outs : List Byte) (s : State) : Result := .next (s.chunkComplete h carry outs)

/-! ### Dispatch (R198) -/

def StreamEnt.eligible (e : StreamEnt) : Bool :=
  e.flight.isEmpty && !e.closing &&
    (match e.queue with
      | [] => false
      | r :: _ => !r.todo.isEmpty && (e.state == .active || (e.state == .exporting && r.redo.isSome)))

/-- Acceptance tick, then handle. -/
def streamBefore (a b : StreamEnt) : Bool :=
  let ta : Nat := match a.queue with | r :: _ => r.tick | [] => 0
  let tb : Nat := match b.queue with | r :: _ => r.tick | [] => 0
  decide (ta < tb) || (ta == tb && decide (a.handle.toNat ≤ b.handle.toNat))

def streamInsert (e : StreamEnt) : List StreamEnt → List StreamEnt
  | [] => [e]
  | x :: r => if streamBefore x e then x :: streamInsert e r else e :: x :: r

/-- The head chunk of a stream enters a lift of span D. -/
def State.dispatch (s : State) (e : StreamEnt) (span : Nat) : State :=
  let x := s.tk.tickCount.toNat
  match e.queue with
  | r :: q =>
    match r.todo with
    | c :: rest =>
      s.putStream { e with
        queue := { r with todo := rest, redo := none } :: q
        flight := [⟨r.tkt, r.split, c, r.redo.getD x, x + span - 1⟩], lastDisp := BitVec.ofNat 64 x }
    | [] => s
  | [] => s

/-- The count word of a lift, in the scratchpad of each Face of the die whose program declares the lift (R103, R198). -/
def State.putCount (s : State) (d : Nat) (l : Lift) (n : Nat) : State :=
  allFaces.foldl (fun s f =>
    let has := match (s.face f).prog with | some p => p.lifts.contains l | none => false
    if f.val / 12 == d && has then s.spBytes f l.count.toNat (leBytes 4 n) else s) s

/-- One lift takes up to C of the die's eligible streams with its digest, and its count word tells the program how many. -/
def State.fillLift (s : State) (d : Nat) (l : Lift) : State :=
  let cands := (s.strm.ents.filter fun e => e.die == d && e.eligible && crc64 e.cell == l.digest).foldl (fun o e => streamInsert e o) []
  let taken := cands.take l.places
  (taken.foldl (fun s e => s.dispatch e l.span) s).putCount d l taken.length

/-- Step 10 of R214. -/
def State.fillLifts (s : State) : State :=
  (List.range 8).foldl (fun s d => (s.lifts d).foldl (fun s l => s.fillLift d l) s) s

/-! ### Halts (R200) -/

/-- A chunk in flight goes back to the head of its request, with its dispatch tick; that of a closing stream to its sender. -/
def State.requeue (s : State) (e : StreamEnt) : State :=
  match e.flight with
  | [] => s
  | x :: _ =>
    if e.closing then ((s.returnReqs e.queue .streamUnknown).freeStream e).owe e.waiting
    else
      (s.putStream { e with
        queue := e.queue.map fun r => if r.tkt = x.tkt then { r with todo := x.chunk :: r.todo, redo := some x.dispatch } else r
        flight := [], waiting := [] }).owe e.waiting

/-- At the halt boundary into tick x, a chunk whose span reaches it goes back; at the end of the halt, every one. -/
def State.requeueFrom (s : State) (x : Nat) : State :=
  (s.strm.ents.filter fun e => e.flight.any fun f => decide (x ≤ f.doneAt)).foldl State.requeue s

/-- PIT_DESTROY closes every stream (R200). -/
def State.destroyStreams (s : State) : State :=
  let s1 := s.strm.ents.foldl (fun s e =>
    let s := s.returnReqs e.queue .streamUnknown
    let s := s.dropExports e.exports
    (e.waiting.foldl (fun s t => s.finish t .streamUnknown []) s).freeStream e) s
  let rest := s1.strm.owed ++ s1.strm.deferred.map (·.1)
  let s2 : State := { s1 with strm := { s1.strm with ents := [], owed := [], deferred := [], formed := [] } }
  let s3 := s1.strm.formed.foldl (fun s r => s.finishAt r.1 r.2.1 r.2.2.1 r.2.2.2) s2
  rest.foldl (fun s t => s.finish t .streamUnknown []) s3

/-! ### Exports (R201, R202) and records (R203) -/

/-- The record of a stream at a snapshot. -/
def State.recordOf (s : State) (e : StreamEnt) : List Byte :=
  let h := [0x20, BitVec.ofNat 8 (b2n e.narPresent + 2 * b2n e.aidOver + 4 * b2n e.svcValid), e.lastL, e.svcL]
    ++ leBytes 4 e.carryBytes ++ leBytes 4 e.initBytes ++ leBytes 4 e.chunks.toNat ++ leBytes 8 (crc64 e.cell).toNat
    ++ leBytes 8 s.aid ++ leBytes 8 e.stepCount.toNat ++ leBytes 8 s.tk.tickCount.toNat ++ leBytes 2 s.fab.faddr.toNat
    ++ leBytes 2 e.handle.toNat ++ leBytes 4 e.incarn.toNat ++ zeros 8
  let b := h ++ s.mem.bytes e.addr (e.carryBytes + e.initBytes)
  b ++ leBytes 8 (crc64 b).toNat ++ leBytes 4 (b.length + 32) ++ zeros 20

/-- The packets of a record for another module: class-1 landing writes that become visible in the next tick, with the marks of the
poisoned state (R201, R202, R217, R262; log entry 152). -/
def State.recordPackets (s : State) (e : StreamEnt) (x : Export) (rec_ : List Byte) (marks : List Nat) : List Packet :=
  let gs := carriedMarks marks e.addr (x.dest.toNat + 64) (e.carryBytes + e.initBytes)
  (bodyCuts rec_.length).map fun (off, n) =>
    s.dataPacket 1 0x01 x.faddr 1 x.tkt.key.tag s.tk.tickCount (x.dest + BitVec.ofNat 64 off) ((rec_.drop off).take n)
      (packetMarks gs (x.dest.toNat + off) n) none

/-- A record goes to its target: into local memory, unless a target word is poisoned, or to another module. -/
def State.writeRecord (s : State) (e : StreamEnt) (x : Export) (rec_ : List Byte) (marks : List Nat) : State × Export :=
  if x.remote then ((s.recordPackets e x rec_ marks).foldl State.post s, { x with record := some rec_ })
  else
    let gs := s.mem.markedIn x.dest.toNat rec_.length
    let s1 := s.noteReads .hub [(x.dest.toNat, rec_.length)]
    if gs.isEmpty then
      ({ s1 with mem := s1.mem.writeBytes x.dest.toNat rec_ (carriedMarks marks e.addr (x.dest.toNat + 64) (e.carryBytes + e.initBytes)) },
        { x with record := some rec_ })
    else (s1, { x with record := some rec_, result := some (.memPoisoned, poisonPayload gs) })

/-- The export that made the stream EXPORTING: the last one, for no later one is accepted while it runs (R192). -/
def StreamEnt.moving (e : StreamEnt) : Option Export := if e.state = .exporting then e.exports.getLast? else none

/-- EXPORT_SNAPSHOT: once no chunk must still complete, at a boundary after the acceptance and the last completion. State that holds a
NaR, or that has been poisoned since, sets NAR_PRESENT (R202). -/
def State.exportSnapshot (s : State) (h : BitVec 16) : State :=
  match s.streamOf h with
  | none => s
  | some e =>
    match e.moving with
    | some x =>
      if e.flight = [] ∧ e.queue = [] ∧ x.record = none ∧ x.at_ < s.tk.tickCount.toNat then
        let s1 := s.noteReads .hub [(e.addr, e.carryBytes + e.initBytes)]
        let e1 := { e with narPresent := e.narPresent || s1.stateNar e }
        let rec_ := s1.recordOf e1
        let (s2, y) := s1.writeRecord e1 { x with tick := s.tk.tickCount } rec_ (s1.mem.markedIn e.addr (e.carryBytes + e.initBytes))
        s2.putStream { e1 with exports := e.exports.dropLast ++ [y], lastRec := some (rec_, s.tk.tickCount) }
      else s
    | none => s

def execExportSnapshot (h : BitVec 16) (s : State) : Result := .next (s.exportSnapshot h)

/-- The failure of a record write, if it failed (R202). -/
def exportFailure (x : Export) : ExportEnd → Option Refuse
  | .landed => x.result
  | .unreachable => if x.remote then some (.notReady, []) else x.result
  | .refused => if x.remote then some (badParam 32) else x.result
  | .poisoned a n => if x.remote then some (.memPoisoned, leBytes 8 a.toNat ++ leBytes 4 n.toNat) else x.result

/-- A record write has failed: the export replies, and the stream enters PAUSED (R202). The failure of an earlier export's write leaves
an export under way alone. -/
def State.exportFailed (s : State) (e : StreamEnt) (x : Export) (r : Refuse) : State :=
  let mine := match e.moving with | some y => y.tkt == x.tkt | none => false
  (s.putStream { e with
    exports := e.exports.filter fun y => y.tkt ≠ x.tkt
    state := if mine || e.state == .moved then .paused else e.state }).finish x.tkt r.1 r.2

/-- EXPORT_WRITE_DONE: the oldest record on its way has landed, or its write has failed. A landed one replies at the next boundary
(R201 step 5); a failed one replies now, and the stream enters PAUSED. -/
def State.exportWriteDone (s : State) (h : BitVec 16) (how : ExportEnd) : State :=
  match s.streamOf h with
  | none => s
  | some e =>
    match e.exports.find? fun x => x.record.isSome && !x.written with
    | none => s
    | some x =>
      match exportFailure x how with
      | none => s.putStream { e with exports := e.exports.map fun y => if y.tkt = x.tkt then { y with written := true } else y }
      | some r => s.exportFailed e x r

def execExportWriteDone (h : BitVec 16) (how : ExportEnd) (s : State) : Result := .next (s.exportWriteDone h how)

/-- Exports whose record has landed reply, and with the one that made it EXPORTING the stream enters MOVED. -/
def State.exportReplies (s : State) (e : StreamEnt) : State :=
  let done := e.exports.filter (·.written)
  if done.isEmpty then s
  else
    done.foldl (fun s x =>
      s.finish x.tkt .ok (leBytes 4 ((x.record.map List.length).getD 0) ++ zeros 4 ++ leBytes 8 x.tick.toNat))
      (s.putStream { e with
        exports := e.exports.filter fun x => !x.written
        state := match e.moving with | some x => if x.written then .moved else e.state | none => e.state })

/-- Acceptance of an export (R201): dispatch stops and the queued chunks go back, but for one that must run again. -/
def acceptExportNow : Accept := fun s pk t =>
  let dest := cmdArg pk 0 8
  let fa := BitVec.ofNat 15 (cmdArg pk 8 2)
  let remote := cmdArg pk 10 1 == 1
  answerIf (refusal [
      (decide (dest % 64 = 0), badArg 0), (decide (cmdArg pk 8 2 < 2 ^ 15), badArg 8), (decide (cmdArg pk 10 1 < 2), badArg 10),
      (cmdZero pk 11 21, badArg 11)])
    (withStream s pk fun e =>
      let n := 96 + e.carryBytes + e.initBytes
      let x : Export := ⟨t, s.tk.tickCount.toNat, BitVec.ofNat 64 dest, fa, remote, none, 0, none, false⟩
      answerIf (refusal [
          (remote || (s.mem.rangeOk dest n && !touchesFixed s.strm.slotK.toNat dest n), badArg 0),
          (!remote || s.inBlock fa, (.pitDenied, [])), (e.state != .exporting, (.configBusy, []))])
        (match e.state, e.lastRec with
          | .moved, some (rec_, tick) =>
            let marks := s.mem.markedIn e.addr (e.carryBytes + e.initBytes)
            let (s1, y) := s.writeRecord e { x with tick := tick } rec_ marks
            .later (s1.putStream { e with exports := e.exports ++ [y] })
          | _, _ =>
            let keep := fun (r : ChunkReq) => e.flies r || r.redo.isSome
            let s1 := s.returnReqs (e.queue.filter fun r => !keep r) .streamMoved
            .later (s1.putStream { e with state := .exporting, queue := e.queue.filter keep, exports := e.exports ++ [x] })))

/-- STREAM_EXPORT: at once, or held until its execute-at boundary. -/
def acceptStreamExport : Accept := fun s pk t =>
  if pk.execAt = 0 then acceptExportNow s pk t
  else .held { s with strm := { s.strm with deferred := s.strm.deferred ++ [(t, pk.execAt.toNat, pk)] } }

/-- A held export is accepted at its boundary. -/
def State.acceptDeferred (s : State) (d : Ticket × Nat × CmdPacket) : State :=
  let t : Ticket := ⟨d.1.key, s.tick32⟩
  match acceptExportNow s d.2.2 t with
  | .refuse r => s.finish t r.1 r.2
  | .reject s1 r => s1.finish t r.1 r.2
  | .done s1 st p => (s1.noteAccepted 0x0405 d.2.2).finish t st p
  | .later s1 | .held s1 =>
    let s2 := ({ s1 with host := { s1.host with
      outstanding := s1.host.outstanding.map fun (x : Ticket) => if x.key = t.key then t else x } } : State).noteAccepted 0x0405 d.2.2
    if cmdPend d.2.2 then s2.pendingReply d.2.2 else s2

/-- The stream service's work at a boundary, before the lifts are filled: replies to chunks, replies owed, exports that end, exports that
begin. -/
def State.streamBoundary (s : State) : State :=
  let now := s.tk.tickCount.toNat
  let formed := s.strm.formed
  let owed := s.strm.owed
  let s1 : State := { s with strm := { s.strm with owed := [], formed := [] } }
  let s2 := owed.foldl (fun s t => s.finish t .ok []) (formed.foldl (fun s r => s.finishAt r.1 r.2.1 r.2.2.1 r.2.2.2) s1)
  let s3 := s2.strm.ents.foldl State.exportReplies s2
  let due := s3.strm.deferred.filter fun d => d.2.1 == now
  let s4 : State := { s3 with strm := { s3.strm with deferred := s3.strm.deferred.filter fun d => d.2.1 != now } }
  due.foldl State.acceptDeferred s4

/-! ### Records from another module (R202, R217) -/

/-- A delivered piece of a record whose tick of visibility has come. -/
def State.recordPiece (s : State) (src : FAddr) (pit : PitId) (tag : BitVec 16) (k : Packet) : Bool :=
  k.cls == 1 && k.kind == 0x01 && k.src == src && k.tag == tag && k.pit == pit && pit == s.pit.id
    && decide (k.tick.toNat + k.vis.toNat ≤ s.tk.tickCount.toNat)

/-- The pieces of `len` bytes that lie from an address on without a gap. -/
def piecesFrom : Nat → List Packet → Nat → Nat → List Packet
  | 0, _, _, _ => []
  | n + 1, l, a, len =>
    if len = 0 then []
    else match l.find? fun k => k.addr.toNat == a with
      | some k => k :: piecesFrom n (l.erase k) (a + Nat.max 1 k.body.length) (len - k.body.length)
      | none => []

/-- The pieces of the record of `len` bytes that a source sends to an address under a tag, once all of them are here. -/
def State.recordPieces (s : State) (src : FAddr) (pit : PitId) (tag : BitVec 16) (addr : DevAddr) (len : Nat) : Option (List Packet) :=
  let l := s.fab.delivered.filter (s.recordPiece src pit tag)
  let ps := piecesFrom l.length l addr.toNat len
  let b := ps.flatMap (·.body)
  if leAt b 0 1 = 0x20 ∧ b.length = len ∧ len = 96 + leAt b 4 4 + leAt b 8 4 then some ps else none

/-- STREAM_RECORD_LANDING: the destination writes the record, with its marks, or refuses it and tells the source (R202). -/
def State.recordLanding (s : State) (src : FAddr) (pit : PitId) (tag : BitVec 16) (addr : DevAddr) (len : Nat) : State :=
  match s.recordPieces src pit tag addr len with
  | none => s
  | some ps =>
    let a := addr.toNat
    let bytes := ps.flatMap (·.body)
    let s0 : State := { s with fab := { s.fab with delivered := ps.foldl List.erase s.fab.delivered } }
    if !s.mem.cmdRangeOk a len || touchesFixed s.strm.slotK.toNat a len then
      s0.deliver ⟨.fabric src, tag, (badParam 32).1, s.tick32, s.tick32, (badParam 32).2⟩
    else
      let gs := s.mem.markedIn a len
      let s1 := s0.noteReads .hub [(a, len)]
      if gs.isEmpty then ({ s1 with mem := s1.mem.writeBytes a bytes (ps.flatMap landingMarks) }).disturb a len
      else s1.deliver ⟨.fabric src, tag, .memPoisoned, s.tick32, s.tick32, poisonPayload gs⟩

def execStreamRecordLanding (src : FAddr) (pit : PitId) (tag : BitVec 16) (addr : DevAddr) (len : Nat) (s : State) : Result :=
  .next (s.recordLanding src pit tag addr len)

/-! ### STREAM_IMPORT (R204, R205) -/

/-- Step 3 of R204: the first field of the record that fails. -/
def recordFault (rec_ : List Byte) (c i : Nat) (zeroInit : Bool) : Option Nat :=
  (([(decide (leAt rec_ 1 1 < 8), 1), (decide (leAt rec_ 48 2 < 2 ^ 15), 48), (zeroAt rec_ 56 8, 56), (zeroAt rec_ (76 + c + i) 20, 76 + c + i),
    (i == (if zeroInit then 0 else c), 8)] : List (Bool × Nat)).find? fun x => !x.1).map (·.2)

def importRefusal (s : State) (pk : CmdPacket) (rec_ : List Byte) (fits : Bool) : Option Refuse :=
  let c := leAt rec_ 4 4
  let i := leAt rec_ 8 4
  let cell := ((cmdParams pk).drop 32).take 32
  let aid := leAt rec_ 24 8
  firstRefusal [
    refusal [
      (leAt rec_ 0 1 == 0x20, badArtefact),
      (fits, badParam2 32 (if c % 64 = 0 ∧ i % 64 ≠ 0 then 8 else 4)),
      (leAt rec_ (64 + c + i) 8 == (crc64 (rec_.take (64 + c + i))).toNat && leAt rec_ (72 + c + i) 4 == 96 + c + i, (.badCrc, []))],
    (recordFault rec_ c i (cellZeroInit cell)).map (badParam2 32),
    refusal [
      (leAt rec_ 16 8 == (crc64 cell).toNat, (.streamStateMismatch, zeros 16)),
      (aid == s.aid || cmdArg pk 8 1 == 1, (.streamStateMismatch, [1] ++ zeros 7 ++ leBytes 8 aid)),
      (!s.slotKWaits, (.configBusy, []))]]

/-- The stream that a record creates. -/
def importedStream (s : State) (h : BitVec 16) (spill : Option DevAddr) (cell rec_ : List Byte) : StreamEnt :=
  let fl := leAt rec_ 1 1
  { blankStream h spill cell (leAt rec_ 4 4) (leAt rec_ 8 4) with
    state := .paused, narPresent := bit fl 0, aidOver := bit fl 1 || leAt rec_ 24 8 != s.aid, svcValid := bit fl 2
    svcL := BitVec.ofNat 8 (leAt rec_ 3 1), lastL := BitVec.ofNat 8 (leAt rec_ 2 1), chunks := BitVec.ofNat 32 (leAt rec_ 12 4)
    stepCount := BitVec.ofNat 64 (leAt rec_ 32 8) }

def acceptStreamImport : Accept := fun s pk _ =>
  let a := cmdArg pk 0 8
  let cell := ((cmdParams pk).drop 32).take 32
  let c := s.mem.nat (a + 4) 4
  let i := s.mem.nat (a + 8) 4
  let fits := sizesOk c i && s.mem.cmdRangeOk a (96 + c + i)
  answerIf (firstRefusal [
      refusal [(decide (a % 64 = 0), badArg 0), (decide (cmdArg pk 8 1 < 2), badArg 8), (cmdZero pk 9 23, badArg 9),
        (leAt cell 0 1 == 0x20, badArtefact)],
      (cellFault cell).map fun o => badArg (32 + o),
      refusal [(s.mem.cmdRangeOk a 64, badArg 0)]])
    (withArtefact s a (if fits then 96 + c + i else 64) fun s rec_ =>
      answerIn s (importRefusal s pk rec_ fits)
        (match s.allocate pk.target.toNat (c + i) with
          | .error r => .reject s r
          | .ok (h, spill) =>
            let e0 := importedStream s h spill cell rec_
            let s1 : State := { s with mem := s.mem.writeBytes e0.addr ((rec_.drop 64).take (c + i)) [] }
            let (s2, e) := s1.newStream e0
            .done (if leAt rec_ 24 8 = s.aid then s2 else s2.raise 0x0103 .module 0 (leBytes 8 (leAt rec_ 24 8))) .ok e.ident))

end Sys2Proof.Machine
end

