-- ==== Sys2Proof/Machine/RingUnit.lean ====
section
/-! DEFINITION. Units of a gradient bucket: sizes (R289), quire fragments (R300), the first sender (R301, R302), the adding hop with
escalation and fallback (R303, R304), NaR candidates (R306). -/

namespace Sys2Proof.Machine

/-! ### Formats and sizes -/

def RingFmt.rank : RingFmt → Nat
  | .bp8 => 0 | .bp16 => 1 | .posit32 => 2 | .fragment => 3

/-- Bits of an element. -/
def RingFmt.elem : RingFmt → Nat
  | .bp8 => 8 | .bp16 => 16 | .posit32 => 32 | .fragment => 64

/-- Bytes before the elements: a block's header. -/
def RingFmt.head (f : RingFmt) : Nat := if f.isBp then 4 else 0

/-! ### Values of a unit -/

/-- A unit's 32 values, the O_KIND that a NaR of each would have, and the events of the read (R37, R306). -/
structure UnitRd where
  vals  : List Val
  kinds : List Nat
  tot   : Totals
  deriving DecidableEq, Repr

def unitHeader (u : UnitVal) : BpHeader := BpHeader.ofNat (leAt u.bytes 0 4)

/-- A block whose header is poisoned or malformed: all of it reads NaR (R36, R306). -/
def UnitVal.lost (u : UnitVal) : Bool := u.fmt.isBp && (u.marks.contains 32 || (unitHeader u).malformed)

/-- A fragment's value, an integer; the pattern 2^63 is NaR (R300). -/
def fragVal (p : Nat) : Val := if p = 2 ^ 63 then .nar else .fin (toSigned 64 p : Int)

def fragPat : Val → Nat
  | .fin q => ofSigned 64 q.num
  | _ => 2 ^ 63

def unitRead (u : UnitVal) (look : Nat → Rd × Totals) : UnitRd :=
  let ids := List.range 32
  let poisonKind := ids.map fun i => b2n (u.marks.contains i)
  let scalar := fun (n : Nat) (dec : Nat → Val) =>
    (⟨ids.map fun i => if u.marks.contains i then .nar else dec (leAt u.bytes (n * i) n), poisonKind, Totals.zero⟩ : UnitRd)
  match u.fmt with
  | .fragment => scalar 8 fragVal
  | .posit32 => scalar 4 (positDecode 32)
  | f =>
    let n := f.elem
    let k := n / 8
    let hm := u.marks.contains 32
    let (rs, t) := decodeBlock n (leAt u.bytes 0 4) hm (ids.map fun i => (leAt u.bytes (4 + k * i) k, u.marks.contains i)) look
    ⟨rs.map (·.v), rs.map fun r => b2n (u.lost || r.mark), t⟩

/-- A block of the ring has no escapes; one that names some has no list to find them in (R120, R301). -/
def noLook : Nat → Rd × Totals := fun _ => spallMissed

/-! ### A member's own contribution -/

/-- A raw quire as a fragment: value, O_KIND, windowed, overflowed (R300). -/
def fragOf (d : BucketDesc) (pat : Nat) (mark : Bool) : Val × Nat × Bool × Bool :=
  let w := 8 * d.quireBytes
  if mark then (.nar, 1, false, false)
  else if pat = 2 ^ (w - 1) then (.nar, 0, false, false)
  else
    let x : Rat := ((toSigned w pat : Int) : Rat) * pow2 (d.srcG - d.fragLsb)
    let r := rne x
    let big := decide ((2 : Int) ^ 63 - 1 < intAbs r)
    (if big then .nar else .fin (r : Rat), if big then 2 else 0, decide ((r : Rat) ≠ x), big)

/-- A unit of SRC with what reading it tells: its values and kinds, and the window and overflow counts of R300. -/
structure OwnUnit where
  unit : UnitVal
  rd   : UnitRd
  win  : Nat
  ovf  : Nat
  deriving DecidableEq, Repr

/-- The page of a unit in SRC's spall list (R301). -/
def BucketDesc.spallPage (d : BucketDesc) (u : Nat) : Nat := d.srcSpall.toNat + u / 32 * slotsOf d.scode * 16

/-- The pages of SRC's spall list that a read of units uses: those of the blocks that name escapes. -/
def Mem.pagesUsed (m : Mem) (d : BucketDesc) (us : List Nat) : List (Nat × Nat) :=
  if d.srcSpall = 0 ∨ !d.fmt.isBp then []
  else
    let with_ := us.filter fun u =>
      let a := d.src.toNat + u * d.srcBytes
      let h := BpHeader.ofNat (m.nat a 4)
      h.nesc != 0 && !h.malformed && !m.marked a 4
    (with_.foldl (fun l u => nins (d.spallPage u) l) []).map fun a => (a, slotsOf d.scode * 16)

def Mem.ownUnit (m : Mem) (d : BucketDesc) (u : Nat) : OwnUnit :=
  let a := d.src.toNat + u * d.srcBytes
  match d.fmt with
  | .fragment =>
    let n := d.quireBytes
    let fs := (List.range 32).map fun i => fragOf d (m.nat (a + n * i) n) (m.marked (a + n * i) n)
    let bytes := fs.flatMap fun f => leBytes 8 (fragPat f.1)
    ⟨⟨u, .fragment, bytes, []⟩, ⟨fs.map (·.1), fs.map (·.2.1), Totals.zero⟩, (fs.filter (·.2.2.1)).length, (fs.filter (·.2.2.2)).length⟩
  | f =>
    let k := f.elem / 8
    let marks := ((List.range 32).filter fun i => m.marked (a + f.head + k * i) k) ++ if f.isBp && m.marked a 4 then [32] else []
    let unit : UnitVal := ⟨u, f, m.bytes a f.bytes, marks⟩
    let look := fun i => if d.srcSpall = 0 then spallMissed else spallFind m (d.spallPage u) (slotsOf d.scode) u i
    ⟨unit, unitRead unit look, 0, 0⟩

/-- The byte of R302. -/
def scaleByte (vs : List Val) : Byte :=
  let m := vs.foldl (fun m v => match v with | .fin q => if m < ratAbs q then ratAbs q else m | _ => m) (0 : Rat)
  if m = 0 then 0x80 else BitVec.ofNat 8 (ofSigned 8 (clampInt (-127) 127 (floorLog2 m)))

/-- The agreed scale of R302. -/
def agreedScale (e : Byte) : Int := clampInt (-127) 126 (toSigned 8 e.toNat - 4)

/-! ### NaR candidates (R306) -/

/-- A candidate of a unit: the lowest element, the first met on a tie. -/
def addCand (o : Origin) : List Origin → List Origin
  | [] => [o]
  | x :: r => if x.unit = o.unit then (if o.elem < x.elem then o :: r else x :: r) else x :: addCand o r

/-- The candidates of a unit's NaRs. -/
def narCands (u : Nat) (fa : FAddr) (quar : Bool) (vals : List Val) (kinds : List Nat) : List Origin :=
  (((List.range 32).zip (vals.zip kinds)).filter fun (_, v, _) => !v.isReal).map fun (i, _, k) => ⟨u, i, fa, if quar then 3 else k⟩

/-- NaRs replaced by zero under quarantine, and how many. -/
def quarantine (on : Bool) (vs : List Val) : List Val × Nat :=
  if on then (vs.map fun v => if v.isReal then v else .fin 0, (vs.filter fun v => !v.isReal).length) else (vs, 0)

/-! ### Encoding -/

def srcVals (vs : List Val) : List SrcVal := vs.map SrcVal.of

/-- A block by R39 with escapes off. -/
def encodeR39 (f : RingFmt) (maxalign : Bool) (u : Nat) (vs : List Val) : UnitVal × Totals :=
  let b := bpEncode f.elem maxalign 0 0 (srcVals vs)
  (⟨u, f, bpBytes f.elem b.header b.elems, []⟩, b.tally)

/-- What values that R32 saturates as n-bit posits count (R47). -/
def satTotals (n : Nat) (vs : List Val) : Totals :=
  { Totals.zero with convRange := (vs.filter fun v => match v with | .fin q => positSat n q | _ => false).length }

/-- Values over 2^s. -/
def overScale (s : Int) (vs : List Val) : List Val := vs.map fun v => match v with | .fin q => .fin (q * pow2 (-s)) | v => v

/-- A block at a given scale and ESCAL. -/
def encodeAt (f : RingFmt) (s : Int) (e u : Nat) (vs : List Val) : UnitVal × Totals :=
  (⟨u, f, bpBytes f.elem ⟨s, e, 0, 0, 0, 0⟩ (vs.map (bpElem f.elem s)), []⟩, satTotals f.elem (overScale s vs))

def zeroUnit (f : RingFmt) (e u : Nat) : UnitVal := ⟨u, f, bpBytes f.elem ⟨-128, e, 0, 0, 0, 0⟩ (List.replicate 32 0), []⟩

/-- 32 posit32 values; those that R32 saturates count (R47). -/
def positUnit (u : Nat) (vs : List Val) : UnitVal × Totals :=
  (⟨u, .posit32, vs.flatMap fun v => leBytes 4 (positEncode 32 v), []⟩, satTotals 32 vs)

def fragUnit (u : Nat) (vs : List Val) : UnitVal := ⟨u, .fragment, vs.flatMap fun v => leBytes 8 (fragPat v), []⟩

/-! ### The first sender (R301) -/

/-- A unit that a member forms, with what it counts: quarantined NaRs, escalations, fallbacks, fragment overflows, conversions. -/
structure UnitOut where
  unit  : UnitVal
  cands : List Origin
  quar  : Nat
  esc   : Nat
  fb    : Nat
  ovf   : Nat
  tot   : Totals
  deriving DecidableEq, Repr

/-- A block that the first sender may send as it stands: no escape, well formed, no poisoned word. -/
def plainBlock (u : UnitVal) : Bool := (unitHeader u).nesc == 0 && !(unitHeader u).malformed && u.marks.isEmpty

/-- A unit with other bytes in the elements `bad`. -/
def putElems (u : UnitVal) (bad : List Nat) (pat : Nat) : UnitVal :=
  let k := u.fmt.elem / 8
  { u with
    bytes := u.bytes.take u.fmt.head ++ (List.range 32).flatMap fun i =>
      if bad.contains i then leBytes k pat else (u.bytes.drop (u.fmt.head + k * i)).take k
    marks := [] }

/-- The elements that are NaR. -/
def narElems (vs : List Val) : List Nat := (List.range 32).filter fun i => !(vs.getD i .nar).isReal

/-- Zero bytes for the elements of a unit that are NaR; a block of nothing else becomes ZERO_BLOCK (R301). -/
def clearNars (u : UnitVal) (vs : List Val) : UnitVal :=
  if u.fmt.isBp && vs.all fun v => !v.isReal then zeroUnit u.fmt 0 u.idx else putElems u (narElems vs) 0

def firstUnit (d : BucketDesc) (me : FAddr) (agreed : Option Int) (o : OwnUnit) : UnitOut :=
  let u := o.unit.idx
  let (vs, nq) := quarantine d.quar o.rd.vals
  let cands := narCands u me d.quar o.rd.vals o.rd.kinds
  let done := fun (x : UnitVal) (t : Totals) => (⟨x, cands, nq, 0, 0, 0, o.rd.tot.plus t⟩ : UnitOut)
  match d.fmt with
  | .fragment => done (fragUnit u vs) Totals.zero
  | .posit32 => done (positUnit u vs).1 (positUnit u vs).2
  | f =>
    match agreed with
    | some s =>
      if vs.all (· == .fin 0) then done (zeroUnit f 0 u) Totals.zero
      else
        let (x, t) := encodeAt f s 0 u vs
        done x t
    | none =>
      let (x, t) := if plainBlock o.unit then (o.unit, Totals.zero) else encodeR39 f d.maxalign u o.rd.vals
      done (if d.quar && nq != 0 then clearNars x o.rd.vals else x) t

/-! ### The adding hop (R303) -/

/-- The raise of the scale: k of R303, before its cap at 126. -/
def raiseBy (m : Rat) (s : Int) (e : Nat) (hr : Nat) : Nat → Nat → Nat
  | 0, k => k
  | fuel + 1, k => if pow2 (s + k + hr) ≤ m ∧ e + k < 7 then raiseBy m s e hr fuel (k + 1) else k

/-- The block of the sums `vs`, whose scale and ESCAL come from the header `h` (R303, R304). -/
def blockHop (d : BucketDesc) (agreed : Option Int) (f : RingFmt) (h : BpHeader) (u : Nat) (vs : List Val) : UnitOut :=
  let reals := vs.filterMap fun v => match v with | .fin q => some q | _ => none
  let out := fun (x : UnitVal) (esc fb : Nat) (t : Totals) => (⟨x, [], 0, esc, fb, 0, t⟩ : UnitOut)
  if vs.all (· == .fin 0) then out (zeroUnit f h.escal u) 0 0 Totals.zero
  else
    let chosen := chooseScale d.maxalign (reals.map fun q => q * q)
    let (s0, clamped) : Int × Bool :=
      if !h.isZero then (h.scale, false)
      else match agreed with
        | some a => (a + h.escal, false)
        | none => (clampScale chosen, decide (clampScale chosen ≠ chosen))
    let m := reals.foldl (fun m q => if m < ratAbs q then ratAbs q else m) (0 : Rat)
    let k0 := raiseBy m s0 h.escal (if f = .bp8 then 8 else 12) 8 0
    let k : Int := if 126 < s0 + k0 then 126 - s0 else k0
    let s := s0 + k
    let e := ((h.escal : Int) + k).toNat
    let esc := b2n (decide (0 < k))
    let t0 := { Totals.zero with scaleClamp := b2n clamped }
    if maxpos f.elem * pow2 s ≤ m then
      if f = .bp8 then
        let (x, t) := encodeR39 .bp16 true u vs
        out x esc 1 (t0.plus t)
      else
        let (x, t) := positUnit u vs
        out x esc 1 (t0.plus t)
    else
      let (x, t) := encodeAt f s e u vs
      out x esc 0 (t0.plus t)

/-- Fragment sums: values and the elements that overflow (R300). -/
def fragSums (a b : List Val) : List (Val × Bool) :=
  (a.zip b).map fun (x, y) =>
    match Val.map2 (· + ·) x y with
    | .fin q => if (2 : Rat) ^ 63 - 1 < ratAbs q then (.nar, true) else (.fin q, false)
    | v => (v, false)

/-- What arrives at a hop: the unit, the sender, and the candidate that its packet's header carries. -/
structure Incoming where
  unit   : UnitVal
  src    : FAddr
  origin : Option Origin
  deriving DecidableEq, Repr

/-- Candidates of a hop, in ring order: those of the header, the incoming NaRs, the ones kept before, the own NaRs, overflows. -/
def hopCands (quar : Bool) (me : FAddr) (inc : Incoming) (ra rb : UnitRd) (prior : List Origin) (ovf : List Nat) : List Origin :=
  let u := inc.unit.idx
  let head := match inc.origin with | some o => if o.unit = u then [o] else [] | none => []
  let fa := match inc.origin with | some o => o.faddr | none => inc.src
  (head ++ narCands u fa quar ra.vals ra.kinds ++ prior ++ narCands u me quar rb.vals rb.kinds
    ++ ovf.map fun i => (⟨u, i, me, 2⟩ : Origin)).foldl (fun l o => addCand o l) []

/-- A hop on one unit; `b` is this member's contribution with its values. -/
def hopUnit (d : BucketDesc) (me : FAddr) (agreed : Option Int) (inc : Incoming) (b : UnitVal) (rb : UnitRd) (prior : List Origin) :
    UnitOut :=
  let a := inc.unit
  let u := a.idx
  let ra := unitRead a noLook
  let (va, qa) := quarantine d.quar ra.vals
  let (vb, qb) := quarantine d.quar rb.vals
  let t := ra.tot.plus rb.tot
  if a.fmt = .fragment then
    let sums := fragSums va vb
    let ovf := ((List.range 32).zip sums).filterMap fun (i, _, o) => if o then some i else none
    ⟨fragUnit u (sums.map (·.1)), hopCands d.quar me inc ra rb prior ovf, qa + qb, 0, 0, ovf.length, t⟩
  else
    let vs := (va.zip vb).map fun (x, y) => Val.map2 (· + ·) x y
    let cands := hopCands d.quar me inc ra rb prior []
    let wide := if b.fmt.rank ≤ a.fmt.rank then a else b
    if wide.fmt = .posit32 then ⟨(positUnit u vs).1, cands, qa + qb, 0, 0, 0, t.plus (positUnit u vs).2⟩
    else
      let o := blockHop d agreed wide.fmt (unitHeader wide) u vs
      { o with cands := cands, quar := qa + qb, tot := t.plus o.tot }

/-! ### The all-gather (R295, R306) -/

/-- A unit that arrives in an all-gather. The bucket's NaR policy meets what the link poisoned and what arrives malformed: those
elements become NaR, or zero under quarantine; a unit that arrives whole is not touched (R262, R295, R306). -/
def arriveUnit (d : BucketDesc) (inc : Incoming) : UnitOut :=
  let u := inc.unit
  let rd := unitRead u noLook
  let bad := if u.lost then List.range 32 else u.marks.filter (· < 32)
  if bad.isEmpty then ⟨u, [], 0, 0, 0, 0, Totals.zero⟩
  else
    let nars := (List.range 32).map fun i => if bad.contains i then Val.nar else .fin 0
    let x :=
      if d.quar then (if u.lost then zeroUnit u.fmt 0 u.idx else putElems u bad 0)
      else if u.lost then (encodeR39 u.fmt d.maxalign u.idx nars).1
      else putElems u bad (2 ^ (u.fmt.elem - 1))
    let fa := match inc.origin with | some o => o.faddr | none => inc.src
    ⟨x, narCands u.idx fa d.quar nars (List.replicate 32 1), if d.quar then bad.length else 0, 0, 0, 0, rd.tot⟩

/-! ### Delivery (R305) -/

/-- The bytes of a unit at its home slot, and the events of forming them. -/
def homeBytes (d : BucketDesc) (x : UnitVal) : List Byte × Totals :=
  let rd := unitRead x noLook
  let vs := rd.vals
  let round := fun (n : Nat) (vs : List Val) => ((vs.flatMap fun v => leBytes (n / 8) (positEncode n v), satTotals n vs) : List Byte × Totals)
  if d.fmt = .fragment then
    let ws := vs.map fun v => match v with | .fin q => Val.fin (q * pow2 d.fragLsb) | v => v
    match d.outfmt.toNat with
    | 0 => (x.bytes, Totals.zero)
    | 1 => round 16 ws
    | 2 => round 32 ws
    | _ => let (y, t) := encodeR39 .bp16 d.maxalign x.idx ws; (y.bytes, t)
  else if x.fmt = d.fmt then (x.bytes, Totals.zero)
  else
    let (y, t) := encodeR39 d.fmt d.maxalign x.idx vs
    (y.bytes, rd.tot.plus t)

/-- NaR elements of a delivered unit. -/
def narCount (x : UnitVal) : Nat := ((unitRead x noLook).vals.filter fun v => !v.isReal).length

/-- A fallback entry of 136 bytes (R304). -/
def fallbackEntry (x : UnitVal) : List Byte :=
  leBytes 4 x.idx ++ [if x.fmt = .bp16 then 5 else 3, 0, 0, 0] ++ padTo 128 x.bytes

/-- The fallback marker at a unit's home position. -/
def fallbackMarker (f : RingFmt) : List Byte := leBytes 4 0x7F000000 ++ zeros (f.bytes - 4)

end Sys2Proof.Machine
end

