-- ==== Sys2Proof/Machine/Buckets.lean ====
section
/-! DEFINITION. Gradient buckets: COLL_BUCKET_DEF, COLL_ARM, COLL_QUERY and COLL_FILL (R288 to R293, R312), the ring schedule
(R294, R295) and the packets of a step (R298, R304). -/

namespace Sys2Proof.Machine

/-! ### Buckets of the module -/

def BucketSt.code : BucketSt → Nat
  | .unarmed => 1 | .filling => 2 | .running => 3 | .prepass => 4

def BucketSt.armed : BucketSt → Bool
  | .unarmed => false
  | _ => true

def HalfPos.idle : HalfPos :=
  { phase := 0, ag := false, pre := false, step := 0, due := 0, range := [], units := [], prebytes := [], cands := [], past := false
    paid := (0, 0) }

def Bucket.blank (id : BitVec 12) (d : BucketDesc) : Bucket :=
  { id := id, defn := d, desc := d, state := .unarmed, pass := 0, fills := 0, fullTick := 0, full := false, endTick := 0
    bytesSent := 0, esc := 0, fallback := 0, quarCnt := 0, narOut := 0, fbLost := 0, stray := 0, mismatch := 0, fragWin := 0
    fragOvf := 0, tkt := none, half0 := HalfPos.idle, half1 := HalfPos.idle, segs := [], origin := none, poisoned := [], fallen := []
    written := [], broken := false, ended := none }

/-! ### The shape of a schedule (R294) -/

/-- The axes along which a pass runs. -/
def Pit.axes (p : Pit) : List Nat := [0, 1, 2].filter fun i => 1 < p.size i

/-- The units of half 0 (`false`) and half 1. -/
def halfRange (units : Nat) (h : Bool) : Nat × Nat :=
  let c := ceilDiv units 2
  if h then (c, units - c) else (0, c)

/-- Segment j of a range that is divided among n positions. -/
def segmentOf (r : Nat × Nat) (n j : Nat) : Nat × Nat :=
  (r.1 + j * r.2 / n, (j + 1) * r.2 / n - j * r.2 / n)

/-- Position p moved by d along the ring of a half. -/
def ringPos (h : Bool) (n p : Nat) (d : Int) : Nat := (((p : Int) + if h then -d else d) % (n : Int)).toNat

/-- The largest segment of the reduce phases: half 0 holds the larger halves, and its first phase the larger segments. -/
def largestSegment (p : Pit) (units : Nat) : Nat :=
  match p.axes with
  | [] => 0
  | i :: _ => ceilDiv (halfRange units false).2 (p.size i)

/-! ### COLL_BUCKET_DEF (R288, R290) -/

def bucketDesc (b : List Byte) : BucketDesc :=
  let b1 := leAt b 1 1
  let b2 := leAt b 2 1
  { wire := BitVec.ofNat 2 b1, shard := bit b1 2, quar := bit b1 3, prepass := bit b1 4, maxalign := bit b1 5
    outfmt := BitVec.ofNat 2 b2, qw := BitVec.ofNat 2 (b2 / 4), sizeQ := BitVec.ofNat 8 (leAt b 3 1)
    nfill := BitVec.ofNat 16 (leAt b 4 2), fragLsb := toSigned 16 (leAt b 6 2), srcG := toSigned 16 (leAt b 8 2)
    scode := BitVec.ofNat 3 (leAt b 10 1), src := BitVec.ofNat 64 (leAt b 16 8), dst := BitVec.ofNat 64 (leAt b 24 8)
    stage := BitVec.ofNat 64 (leAt b 32 8), stageBytes := leAt b 40 4, fbEntries := leAt b 44 4
    fbAddr := BitVec.ofNat 64 (leAt b 48 8), srcSpall := BitVec.ofNat 64 (leAt b 56 8), digest := crc64 b }

/-- Bytes of the page array of SRC_SPALL (R290). -/
def BucketDesc.spallLen (d : BucketDesc) : Nat := ceilDiv d.units 32 * (slotsOf d.scode * 16)

/-- A range of HBM or of one Stockpile that a bucket's delivery may write (R242). -/
def State.collWriteOk (s : State) (a n : Nat) : Bool := s.mem.cmdRangeOk a n && !touchesFixed s.strm.slotK.toNat a n

/-- The staging area lies in the free region of a Stockpile (R290). -/
def State.stageOk (s : State) (d : BucketDesc) : Bool :=
  let a := d.stage.toNat
  let n := Nat.max 1 d.stageBytes
  decide (pileBase ≤ a) && s.mem.cmdRangeOk a n && !touchesFixed s.strm.slotK.toNat a n

/-- The fields of a descriptor that R5 and R288 bar. -/
def bucketForm (pk : CmdPacket) : Option Refuse :=
  let b1 := cmdArg pk 1 1
  let b2 := cmdArg pk 2 1
  refusal [
    (decide (pk.target.toNat ≠ 0), badParam 8), (cmdArg pk 0 1 == 0x20, badArtefact), (bits b1 7 6 == 0, badArg 1),
    (bits b2 7 4 == 0 && bits b2 3 2 != 3, badArg 2), (decide (cmdArg pk 4 2 ≠ 0), badArg 4),
    (decide (cmdArg pk 10 1 ≤ 4), badArg 10), (cmdZero pk 11 5, badArg 11)]

/-- R290's checks in its order. FB_ADDR is an address like the others, whatever FB_ENTRIES holds (log entry 163). -/
def bucketRefusal (s : State) (d : BucketDesc) (id : BitVec 12) : Option Refuse :=
  let bp := d.fmt.isBp
  let sp := d.srcSpall.toNat
  refusal [
    (!d.prepass || bp, badArg 1), (s.mem.cmdRangeOk d.src.toNat d.srcLen, badArg 16), (s.collWriteOk d.dst.toNat d.dstLen, badArg 24),
    (s.mem.cmdRangeOk d.stage.toNat (Nat.max 1 d.stageBytes), badArg 32),
    (s.collWriteOk d.fbAddr.toNat (Nat.max 1 (136 * d.fbEntries)), badArg 48),
    (sp == 0 || (bp && sp % 1024 == 0 && s.mem.cmdRangeOk sp d.spallLen), badArg 56),
    (s.stageOk d, badArg 32), (decide (2 * largestSegment s.pit d.units * Nat.max 128 d.unitBytes ≤ d.stageBytes), badArg 40),
    (match s.bucket id with | some b => !b.state.armed | none => true, (.configBusy, [])),
    (decide (s.coll.buckets.length < 1024), (.notReady, []))]

def acceptCollBucketDef : Accept := fun s pk _ =>
  let d := bucketDesc ((cmdParams pk).take 64)
  let id : BitVec 12 := pk.target.setWidth 12
  answerIf (firstRefusal [bucketForm pk, bucketRefusal s d id])
    (.done (match s.bucket id with
      | some b => s.setBucket { b with defn := d }
      | none => { s with coll := { s.coll with buckets := s.coll.buckets ++ [Bucket.blank id d] } }) .ok [])

/-! ### COLL_ARM, COLL_QUERY, COLL_FILL -/

/-- COLL_ARM (R291). The status starts anew with the pass. -/
def acceptCollArm : Accept := fun s pk t =>
  match s.bucket (pk.target.setWidth 12) with
  | none => .refuse (badParam 8)
  | some b =>
    if b.state.armed then .refuse (.configBusy, [])
    else .later (s.setBucket { Bucket.blank b.id b.defn with state := .filling, pass := b.pass + 1, tkt := some t })

/-- The bucket status of R312. -/
def Bucket.status (b : Bucket) : List Byte :=
  leBytes 4 b.state.code ++ leBytes 4 b.pass.toNat ++ leBytes 8 b.fullTick.toNat ++ leBytes 8 b.endTick.toNat
    ++ leBytes 8 b.bytesSent.toNat ++ leBytes 4 b.esc.toNat ++ leBytes 4 b.fallback.toNat ++ leBytes 4 b.quarCnt.toNat
    ++ leBytes 4 b.narOut.toNat ++ leBytes 2 b.fbLost.toNat ++ leBytes 2 b.stray.toNat ++ leBytes 2 b.mismatch.toNat ++ leBytes 2 2
    ++ leBytes 4 b.fragWin.toNat ++ leBytes 4 b.fragOvf.toNat

def undefinedStatus : List Byte := zeros 54 ++ leBytes 2 2 ++ zeros 8

/-- COLL_QUERY (R312). -/
def acceptCollQuery : Accept := fun s pk _ =>
  .done s .ok (match s.bucket (pk.target.setWidth 12) with | some b => b.status | none => undefinedStatus)

/-- One fill mark (R292). -/
def State.fill (s : State) (f : FaceId) (id : BitVec 12) : State :=
  let stray := fun (s : State) => s.raise 0x0109 (.face f.val) 0 (leBytes 2 id.toNat)
  match s.bucket id with
  | none => stray s
  | some b =>
    if b.state = .filling ∧ b.full = false then
      let n := b.fills + 1
      s.setBucket (if n = b.desc.nfill.toNat then { b with fills := n, full := true, fullTick := s.tk.tickCount } else { b with fills := n })
    else stray (s.setBucket { b with stray := satInc 16 b.stray })

/-- COLL_FILL: an instruction of a Face. -/
def execCollFill (f : FaceId) (id : BitVec 12) (s : State) : Result := issue s f (.collFill f id) none fun s => s.fill f id

/-! ### Counting in a pass -/

/-- What a member formed counts in the bucket status and in the module's totals (R300, R311). -/
def State.collCount (s : State) (id : BitVec 12) (o : UnitOut) (win : Nat) : State :=
  match s.bucket id with
  | none => s
  | some b =>
    let s1 := s.setBucket { b with
      esc := satAdd 32 b.esc o.esc, fallback := satAdd 32 b.fallback o.fb, quarCnt := satAdd 32 b.quarCnt o.quar
      fragOvf := satAdd 32 b.fragOvf o.ovf, fragWin := satAdd 32 b.fragWin win }
    { s1 with coll := { s1.coll with totEsc := s1.coll.totEsc + o.esc, totFb := s1.coll.totFb + o.fb, totQuar := s1.coll.totQuar + o.quar } }.count
      ⟨0, by omega⟩ o.tot

/-! ### This member's contribution -/

/-- A unit of this member with its values and the candidates kept with it. -/
structure Own where
  unit  : UnitVal
  rd    : UnitRd
  cands : List Origin
  win   : Nat
  ovf   : Nat
  deriving DecidableEq, Repr

/-- The first reduce phase takes its units from SRC; a later one, and an all-gather, from what the half holds. -/
def HalfPos.fromSrc (p : HalfPos) : Bool := !p.ag && decide (p.range.length ≤ 1)

/-- The units `st` to `st + len - 1` of a half: from SRC in the first phase, and the partials held in later ones. -/
def State.ownUnits (s : State) (b : Bucket) (p : HalfPos) (r : Nat × Nat) : List Own :=
  if p.fromSrc then
    (rangeFrom r.1 r.2).map fun u => let o := s.mem.ownUnit b.desc u; ⟨o.unit, o.rd, [], o.win, o.ovf⟩
  else
    (p.units.filter fun x => decide (r.1 ≤ x.idx) && decide (x.idx < r.1 + r.2)).map fun x =>
      ⟨x, unitRead x noLook, p.cands.filter fun o => o.unit == x.idx, 0, 0⟩

/-- Reading SRC, with the pages of its spall list that the units need, leaves its marks (R248), and the pass keeps the granules that it
read poisoned (R291). -/
def State.collReadSrc (s : State) (id : BitVec 12) (r : Nat × Nat) : State :=
  match s.bucket id with
  | none => s
  | some b =>
    let rs := (b.desc.src.toNat + r.1 * b.desc.srcBytes, r.2 * b.desc.srcBytes) :: s.mem.pagesUsed b.desc (rangeFrom r.1 r.2)
    let gs := rs.flatMap fun x => s.mem.markedIn x.1 x.2
    (s.setBucket { b with poisoned := gs.foldl (fun l g => nins g l) b.poisoned }).noteReads .module rs

/-- The scale agreed for a unit, if the bucket agrees on scales (R302). -/
def HalfPos.agreed (p : HalfPos) (d : BucketDesc) (u : Nat) : Option Int :=
  if d.prepass then (p.prebytes.find? fun x => x.1 == u).map fun x => agreedScale x.2 else none

def Bucket.half (b : Bucket) (h : Bool) : HalfPos := if h then b.half1 else b.half0
def Bucket.setHalf (b : Bucket) (h : Bool) (p : HalfPos) : Bucket := if h then { b with half1 := p } else { b with half0 := p }

/-! ### Packets of a step (R298) -/

/-- What one step of a half sends: a header's fields. -/
structure SegHead where
  phase : Nat
  ag    : Bool
  half  : Bool
  pre   : Bool
  step  : Nat
  deriving DecidableEq, Repr

/-- The lowest candidate among a packet's units (R306). -/
def lowestCand (l : List Origin) : Option Origin :=
  l.foldl (fun b o =>
    match b with
    | none => some o
    | some x => if o.unit < x.unit ∨ (o.unit = x.unit ∧ o.elem < x.elem) then some o else b) none

def originField (o : Option Origin) : Nat :=
  match o with
  | some o => o.unit + o.elem * 2 ^ 21 + o.faddr.toNat * 2 ^ 26 + o.kind * 2 ^ 41 + 2 ^ 43
  | none => 0

def segHeader (b : Bucket) (h : SegHead) (fbk : Bool) (first n : Nat) (o : Option Origin) : List Byte :=
  [0x20, BitVec.ofNat 8 (h.phase + 4 * b2n h.ag + 8 * b2n h.half + 16 * b2n h.pre + 32 * b2n fbk), BitVec.ofNat 8 h.step, 0]
    ++ leBytes 2 b.id.toNat ++ leBytes 2 n ++ leBytes 4 b.pass.toNat ++ leBytes 4 first ++ leBytes 8 b.desc.digest.toNat
    ++ leBytes 8 (originField o)

/-- A list in pieces of at most n. -/
def piecesOf {α : Type} : Nat → Nat → List α → List (List α)
  | 0, _, _ => []
  | fuel + 1, n, l => if l.isEmpty then [] else l.take n :: piecesOf fuel n (l.drop n)

def unitsPerPacket : RingFmt → Nat
  | .bp8 => 112 | .bp16 => 59 | .posit32 => 31 | .fragment => 15

/-- Bodies of the packets that carry units in the bucket's format: fallen units leave markers and follow as entries (R304). -/
def unitBodies (b : Bucket) (h : SegHead) (units : List UnitVal) (cands : List Origin) : List (List Byte) :=
  let f := b.desc.fmt
  let cand := fun (l : List UnitVal) => lowestCand (cands.filter fun o => l.any fun x => x.idx == o.unit)
  let first := fun (l : List UnitVal) => match l with | x :: _ => x.idx | [] => 0
  let plain := (piecesOf units.length (unitsPerPacket f) units).map fun l =>
    segHeader b h false (first l) l.length (cand l)
      ++ l.flatMap fun x => if x.fmt = f then padTo f.bytes x.bytes else fallbackMarker f
  let wide := (piecesOf units.length 29 (units.filter fun x => x.fmt ≠ f)).map fun l =>
    segHeader b h true (first l) l.length (cand l) ++ l.flatMap fallbackEntry
  plain ++ wide

/-- Bodies of pre-pass bytes (R302). -/
def byteBodies (b : Bucket) (h : SegHead) (l : List (Nat × Byte)) : List (List Byte) :=
  (piecesOf l.length 4032 l).map fun l =>
    segHeader b h false (match l with | x :: _ => x.1 | [] => 0) l.length none ++ l.map (·.2)

/-- The member at position q along an axis. -/
def State.ringPeer (s : State) (axis q : Nat) : FAddr :=
  let c := fun i => (coord s.pit.corner i + if i = axis then q else s.blockOff s.fab.faddr i) % s.dim i
  addrOf (c 0) (c 1) (c 2)

/-- Packets to a member: class 2, KIND 0x05, V = 1 (R297, R298), and the bytes they count (R312). -/
def State.sendBodies (s : State) (id : BitVec 12) (dst : FAddr) (bodies : List (List Byte)) : State :=
  let pkt := fun (body : List Byte) => s.dataPacket 2 0x05 dst 1 0 s.tk.tickCount 0 body [] none
  match s.bucket id with
  | none => s
  | some b =>
    let n := (bodies.map fun x => x.length + 32).foldl (· + ·) 0
    let s1 := s.setBucket { b with bytesSent := b.bytesSent + BitVec.ofNat 64 n }
    { s1 with fab := { s1.fab with own := s1.fab.own ++ bodies.map pkt } }

/-- The position of this member along an axis. -/
def State.ringHere (s : State) (axis : Nat) : Nat := s.blockOff s.fab.faddr axis

/-- The member that a half sends to: the next one in its direction, and the one before it in an all-gather, which goes the steps of the
reduce phase in reverse (R294, R295; log entry 164). -/
def State.ringNext (s : State) (axis : Nat) (h ag : Bool) : FAddr :=
  s.ringPeer axis (ringPos h (s.pit.size axis) (s.ringHere axis) (if ag then -1 else 1))

end Sys2Proof.Machine
end

