-- ==== Sys2Proof/Machine/Collective.lean ====
section
/-! DEFINITION. A pass of a bucket: its start at a boundary (R292, R301, R302, R310), the adding hop (R303), delivery (R305), the
end of a pass with NAR_ORIGIN (R291, R307), the step timeout (R297), received segments (R298, R299), and halts (R309). -/

namespace Sys2Proof.Machine

/-! ### Delivery (R305) -/

/-- One unit reaches its home slot in DST. A pass whose rule R293 was broken delivers undefined units. -/
def State.deliverUnit (s : State) (id : BitVec 12) (x : UnitVal) : State :=
  match s.bucket id with
  | none => s
  | some b =>
    let d := b.desc
    let a := d.dst.toNat + x.idx * d.dstBytes
    let (bytes, t) := homeBytes d x
    let b1 := { b with
      written := nins x.idx b.written, narOut := satAdd 32 b.narOut (narCount x)
      fallen := if x.fmt = d.fmt then b.fallen else b.fallen ++ [x] }
    let s1 := (s.setBucket b1).count ⟨0, by omega⟩ t
    if b.broken then s1.freeFill a d.dstBytes else { s1 with mem := s1.mem.writeBytes a bytes [] }

def State.deliverUnits (s : State) (id : BitVec 12) (l : List UnitVal) : State := l.foldl (fun s x => s.deliverUnit id x) s

/-! ### Where a half goes on -/

def State.setHalf (s : State) (id : BitVec 12) (h : Bool) (p : HalfPos) : State :=
  match s.bucket id with
  | none => s
  | some b => s.setBucket (b.setHalf h p)

/-- The axis after one, in the order of the reduce phases or against it. -/
def axisAfter (axes : List Nat) (a : Nat) (ag : Bool) : Option Nat :=
  if ag then axes.reverse.find? (· < a) else axes.find? (a < ·)

/-- Units in ascending order after new ones join. -/
def joinUnits (l new : List UnitVal) : List UnitVal :=
  match new with
  | [] => l
  | x :: _ => l.filter (fun y => decide (y.idx < x.idx)) ++ new ++ l.filter (fun y => decide (x.idx < y.idx) && !(new.any fun z => z.idx == y.idx))

/-- The bytes of a range (pre-pass). -/
def bytesIn (l : List (Nat × Byte)) (r : Nat × Nat) : List (Nat × Byte) := l.filter fun x => decide (r.1 ≤ x.1) && decide (x.1 < r.1 + r.2)

def putBytes (l new : List (Nat × Byte)) : List (Nat × Byte) :=
  l.map fun x => (x.1, ((new.find? fun y => y.1 == x.1).map (·.2)).getD x.2)

def HalfPos.head (p : HalfPos) (h : Bool) : SegHead := ⟨p.phase, p.ag, h, p.pre, p.step⟩

/-- The range of the present phase. -/
def HalfPos.now (p : HalfPos) : Nat × Nat := p.range.headD (0, 0)

/-- Offset, along the ring, of the segment that step k sends, and of the one that it receives (R294, R295; log entry 164). -/
def HalfPos.sendOff (p : HalfPos) : Int := if p.ag then (p.step : Int) else -(1 + (p.step : Int))

def HalfPos.recvOff (p : HalfPos) : Int := if p.ag then p.sendOff + 1 else p.sendOff - 1

def State.sendSeg (s : State) (p : HalfPos) (h : Bool) : Nat × Nat :=
  let n := s.pit.size p.phase
  segmentOf p.now n (ringPos h n (s.ringHere p.phase) p.sendOff)

def State.recvSeg (s : State) (p : HalfPos) (h : Bool) : Nat × Nat :=
  let n := s.pit.size p.phase
  segmentOf p.now n (ringPos h n (s.ringHere p.phase) p.recvOff)

/-- The units of a range as this member sends them first: the first sender's encoding in the first phase, the partials held in a
later one (R301). -/
def State.firstUnits (s : State) (id : BitVec 12) (p : HalfPos) (r : Nat × Nat) : State × List UnitVal × List Origin :=
  match s.bucket id with
  | none => (s, [], [])
  | some b =>
    let own := s.ownUnits b p r
    if p.fromSrc then
      let s1 := s.collReadSrc id r
      own.foldl (fun (acc : State × List UnitVal × List Origin) o =>
        let out := firstUnit b.desc s.fab.faddr (p.agreed b.desc o.unit.idx) ⟨o.unit, o.rd, o.win, o.ovf⟩
        (acc.1.collCount id { out with ovf := o.ovf } o.win, acc.2.1 ++ [out.unit], acc.2.2 ++ out.cands)) (s1, [], [])
    else (s, own.map (·.unit), own.flatMap (·.cands))

/-- The send that begins a phase: its step 0 (R294, R295). -/
def State.firstSend (s : State) (id : BitVec 12) (h : Bool) : State :=
  match s.bucket id with
  | none => s
  | some b =>
    let p := b.half h
    let seg := s.sendSeg p h
    let dst := s.ringNext p.phase h p.ag
    if p.pre then s.sendBodies id dst (byteBodies b (p.head h) (bytesIn p.prebytes seg))
    else
      let (s1, units, cands) := s.firstUnits id p seg
      s1.sendBodies id dst (unitBodies b (p.head h) units cands)

/-- The phase after a half's last step: the next axis of the reduce phases, the all-gather back along the axes, or the end. -/
def State.nextPhase (s : State) (id : BitVec 12) (h : Bool) : State :=
  match s.bucket id with
  | none => s
  | some b =>
    let p := b.half h
    let due := s.tk.tickCount.toNat + 1
    let start := fun (q : HalfPos) => (s.setHalf id h { q with step := 0, due := due, paid := (0, 0) }).firstSend id h
    let gathers := p.pre || !b.desc.shard
    match axisAfter s.pit.axes p.phase p.ag with
    | some a => if p.ag then start { p with phase := a, range := p.range.drop 1 } else start { p with phase := a }
    | none =>
      if !p.ag && gathers then start { p with ag := true, range := p.range.drop 1 }
      else s.setHalf id h { p with past := true }

/-- After its last reduce step a half holds its segment fully reduced; a member delivers it at the end of the reduce phases. -/
def State.reduced (s : State) (id : BitVec 12) (h : Bool) : State :=
  match s.bucket id with
  | none => s
  | some b =>
    let p := b.half h
    if p.pre || (axisAfter s.pit.axes p.phase false).isSome then s else s.deliverUnits id p.units

/-- The bytes of the pre-pass for units of SRC, with the marks and events of reading them (R302). -/
def State.preBytes (s : State) (b : Bucket) (r : Nat × Nat) : State × List (Nat × Byte) :=
  let own := s.ownUnits b { HalfPos.idle with range := [r] } r
  let tot := own.foldl (fun t o => t.plus o.rd.tot) Totals.zero
  ((s.collReadSrc b.id r).count ⟨0, by omega⟩ tot, own.map fun o => (o.unit.idx, scaleByte o.rd.vals))

/-- A half enters its first phase. -/
def State.startHalf (s : State) (id : BitVec 12) (h pre : Bool) : State :=
  match s.bucket id, s.pit.axes with
  | some b, a :: _ =>
    let r := halfRange b.desc.units h
    let (s1, bytes) := if pre then s.preBytes b r else (s, (b.half h).prebytes)
    let p : HalfPos := { HalfPos.idle with phase := a, pre := pre, due := s.tk.tickCount.toNat + 1, range := [r], prebytes := bytes }
    (s1.setHalf id h p).firstSend id h
  | _, _ => s

/-- A pass runs its schedule. -/
def State.startRing (s : State) (id : BitVec 12) (pre : Bool) : State :=
  match s.bucket id with
  | none => s
  | some b =>
    let s1 := s.setBucket { b with state := if pre then .prepass else .running }
    (s1.startHalf id false pre).startHalf id true pre

/-- A pass in a Pit of one module: its own contribution waits for the reservation (R310). -/
def State.startAlone (s : State) (id : BitVec 12) : State :=
  match s.bucket id with
  | none => s
  | some b => (s.setBucket { b with state := .running }).setHalf id false { HalfPos.idle with range := [(0, b.desc.units)] }

/-- Its own contribution is delivered, visible from the next boundary (R310). -/
def State.deliverAlone (s : State) (id : BitVec 12) : State :=
  match s.bucket id with
  | none => s
  | some b =>
    let r := (0, b.desc.units)
    let (s1, bytes) := if b.desc.prepass then s.preBytes b r else (s, [])
    let p : HalfPos := { HalfPos.idle with range := [r], prebytes := bytes }
    let (s2, units, cands) := (s1.setHalf id false p).firstUnits id p r
    let s3 := (s2.setHalf id false { p with units := units, cands := cands, past := true }).deliverUnits id units
    match s3.bucket id with
    | none => s3
    | some b3 => s3.setBucket { b3 with ended := some (s.tk.tickCount.toNat + 1) }

/-! ### Step 11 of the boundary: full buckets begin (R292, R297, R310) -/

/-- Full tick, then bucket ID. -/
def bucketBefore (a b : Bucket) : Bool :=
  decide (a.fullTick.toNat < b.fullTick.toNat) || (a.fullTick == b.fullTick && decide (a.id.toNat ≤ b.id.toNat))

def bucketInsert (b : Bucket) : List Bucket → List Bucket
  | [] => [b]
  | x :: r => if bucketBefore x b then x :: bucketInsert b r else b :: x :: r

/-- One bucket begins; its staging area holds ring data from now on, whose layout the manual leaves open (log entry 24). -/
def State.startBucket (s : State) (b : Bucket) : State :=
  let s1 := if s.pit.axes.isEmpty then s else s.freeFill b.desc.stage.toNat b.desc.stageBytes
  if s.pit.axes.isEmpty then s1.startAlone b.id else s1.startRing b.id b.desc.prepass

/-- Buckets in the order in which the reservation serves them: the oldest full one first (R297). -/
def State.bucketsBy (s : State) (p : Bucket → Bool) : List Bucket := (s.coll.buckets.filter p).foldl (fun o b => bucketInsert b o) []

/-- Every full bucket begins; its first sends take nothing of the reservation (log entry 153). -/
def State.startFull (s : State) : State :=
  (s.bucketsBy fun b => b.state == .filling && b.full && decide (b.fullTick.toNat < s.tk.tickCount.toNat)).foldl State.startBucket s

/-! ### Received segments (R298, R299) -/

/-- The fields of a segment's header and what the packet says of it. -/
def segmentOfPacket (pkt : Packet) : Segment :=
  let b := pkt.body
  let h := leAt b 1 1
  let o := leAt b 24 8
  { phase := BitVec.ofNat 2 h, ag := bit h 2, half := bit h 3, pre := bit h 4, fbk := bit h 5, step := leAt b 2 1
    first := leAt b 12 4, nunit := leAt b 6 2, src := pkt.src, vis := pkt.tick.toNat + pkt.vis.toNat, body := b, marks := pkt.marks
    origin := if bit o 43 then some ⟨bits o 20 0, bits o 25 21, BitVec.ofNat 15 (bits o 40 26), bits o 42 41⟩ else none }

/-- COLLECTIVE_SEGMENT: a segment is staged for its hop, or discarded with a record (R299). -/
def State.segmentIn (s : State) (pkt : Packet) : State :=
  s.onArrival pkt 0x05 fun s =>
    let id : BitVec 12 := BitVec.ofNat 12 (leAt pkt.body 4 2)
    let detail := leBytes 2 (leAt pkt.body 4 2 % 4096) ++ zeros 2 ++ leBytes 4 (leAt pkt.body 8 4)
    match s.bucket id with
    | none => s.raise 0x0406 .module 0 detail
    | some b =>
      if b.state.armed && leAt pkt.body 8 4 == b.pass.toNat && leAt pkt.body 16 8 == b.desc.digest.toNat then
        s.setBucket { b with segs := b.segs ++ [segmentOfPacket pkt] }
      else (s.setBucket { b with mismatch := satInc 16 b.mismatch }).raise 0x0406 .module 0 detail

def execCollectiveSegment (pkt : Packet) (s : State) : Result := .next (s.segmentIn pkt)

/-! ### The packets of a step -/

/-- The byte at an offset of a packet's body lies in a poisoned piece of its payload (R262, R274). -/
def Segment.markedAt (g : Segment) (off n : Nat) : Bool :=
  (rangeFrom ((off + 32) / 64) ((off + 31 + n) / 64 + 1 - (off + 32) / 64)).any fun i => g.marks.contains i

/-- A unit in a packet's body from an offset. -/
def Segment.unitAt (g : Segment) (f : RingFmt) (idx off : Nat) : UnitVal :=
  let k := f.elem / 8
  { idx := idx, fmt := f, bytes := padTo f.bytes (g.body.drop off)
    marks := ((List.range 32).filter fun i => g.markedAt (off + f.head + k * i) k) ++ if f.isBp && g.markedAt off 4 then [32] else [] }

/-- The packets of one step of a half. -/
def Bucket.stepSegs (b : Bucket) (h : SegHead) : List Segment :=
  b.segs.filter fun g => g.phase.toNat == h.phase && g.ag == h.ag && g.half == h.half && g.pre == h.pre && g.step == h.step

/-- The fallback entry of a unit among the packets of a step (R304). -/
def entryOf (gs : List Segment) (idx : Nat) : Option Incoming :=
  gs.findSome? fun g =>
    if g.fbk then
      ((List.range g.nunit).find? fun i => leAt g.body (32 + 136 * i) 4 == idx).map fun i =>
        let off := 32 + 136 * i
        ⟨g.unitAt (if leAt g.body (off + 4) 1 = 5 then .bp16 else .posit32) idx (off + 8), g.src, g.origin⟩
    else none

/-- The unit of an index among the packets of a step; a marker needs its entry. -/
def incomingOf (f : RingFmt) (gs : List Segment) (idx : Nat) : Option Incoming :=
  match gs.find? fun g => !g.fbk && decide (g.first ≤ idx) && decide (idx < g.first + g.nunit) with
  | none => none
  | some g =>
    let off := 32 + (idx - g.first) * f.bytes
    if f.isBp && leAt g.body off 4 == 0x7F000000 && !g.markedAt off 4 then entryOf gs idx
    else some ⟨g.unitAt f idx off, g.src, g.origin⟩

/-- Pre-pass bytes among the packets of a step. -/
def byteOf (gs : List Segment) (idx : Nat) : Option (Nat × Byte) :=
  (gs.find? fun g => decide (g.first ≤ idx) && decide (idx < g.first + g.nunit)).map fun g =>
    (idx, BitVec.ofNat 8 (leAt g.body (32 + idx - g.first) 1))

/-- The visible packets of the present step. -/
def State.stepNow (s : State) (b : Bucket) (h : Bool) : List Segment :=
  (b.stepSegs ((b.half h).head h)).filter fun g => decide (g.vis ≤ s.tk.tickCount.toNat)

/-- Every unit of the step has become visible (R297). -/
def State.stepReady (s : State) (b : Bucket) (h : Bool) : Bool :=
  let gs := s.stepNow b h
  let r := s.recvSeg (b.half h) h
  (rangeFrom r.1 r.2).all fun u => if (b.half h).pre then (byteOf gs u).isSome else (incomingOf b.desc.fmt gs u).isSome

/-! ### The collective reservation (R297, R310) -/

/-- The reservation of the tick: vector-engine cycles and mover bytes over the Faces whose programs declare one. -/
def State.reservation (s : State) : Nat × Nat :=
  s.faces.foldl (fun (r : Nat × Nat) x =>
    match x.prog with
    | some p => if x.state.inService then (r.1 + p.resv.1, r.2 + p.resv.2) else r
    | none => r) (0, 0)

/-- Cycles of `n` units at an adding hop: 2 for 8 blocks, 1 for 4 posit32 or fragment units. -/
def hopCycles (f : RingFmt) (n : Nat) : Nat := if f.isBp then 2 * ceilDiv n 8 else ceilDiv n 4

/-- What a step takes: the cycles of its adds, and the bytes that the movers carry (log entry 153). -/
def State.stepCost (s : State) (b : Bucket) (h : Bool) : Nat × Nat :=
  let p := b.half h
  let n := if s.pit.axes.isEmpty then b.desc.units else (s.recvSeg p h).2
  if p.pre then (0, n) else (if p.ag then 0 else hopCycles b.desc.fmt n, n * b.desc.unitBytes)

/-- A half has work for the reservation: a step whose segments are visible, or a delivery in a Pit of one module. -/
def State.hasWork (s : State) (b : Bucket) (h : Bool) : Bool :=
  if s.pit.axes.isEmpty then !h && b.state == .running && b.ended.isNone
  else (b.state == .running || b.state == .prepass) && !(b.half h).past && s.stepReady b h

/-- A step has all that it takes. -/
def State.paidUp (s : State) (b : Bucket) (h : Bool) : Bool :=
  decide ((s.stepCost b h).1 ≤ (b.half h).paid.1 ∧ (s.stepCost b h).2 ≤ (b.half h).paid.2)

/-- A half takes of what is left as much as its step still needs. -/
def State.payHalf (s : State) (left : Nat × Nat) (id : BitVec 12) (h : Bool) : State × (Nat × Nat) :=
  match s.bucket id with
  | none => (s, left)
  | some b =>
    if s.hasWork b h then
      let p := b.half h
      let c := s.stepCost b h
      let give := (Nat.min left.1 (c.1 - p.paid.1), Nat.min left.2 (c.2 - p.paid.2))
      (s.setBucket (b.setHalf h { p with paid := (p.paid.1 + give.1, p.paid.2 + give.2) }), (left.1 - give.1, left.2 - give.2))
    else (s, left)

/-- A bucket of a one-module Pit that has all that its delivery takes is delivered in this tick (R310). -/
def State.finishAlone (s : State) (id : BitVec 12) : State :=
  match s.bucket id with
  | none => s
  | some b => if s.pit.axes.isEmpty && s.hasWork b false && s.paidUp b false then s.deliverAlone id else s

/-- Step 11 of R214: full buckets begin, and ring work takes the reservation of the tick, the oldest full bucket first. -/
def State.fillReservation (s : State) : State :=
  let s1 := s.startFull
  ((s1.bucketsBy fun b => b.state == .running || b.state == .prepass).foldl (fun (acc : State × (Nat × Nat)) b =>
    let (s2, l2) := acc.1.payHalf acc.2 b.id false
    let (s3, l3) := s2.payHalf l2 b.id true
    (s3.finishAlone b.id, l3)) (s1, s.reservation)).1

/-! ### ADDING_HOP -/

/-- A step goes on with what it formed: the next step, or the next phase. -/
def State.stepOn (s : State) (id : BitVec 12) (h : Bool) (bodies : Bucket → SegHead → List (List Byte)) : State :=
  match s.bucket id with
  | none => s
  | some b =>
    let p := b.half h
    if p.step + 2 < s.pit.size p.phase then
      let q := { p with step := p.step + 1, due := s.tk.tickCount.toNat + 1, paid := (0, 0) }
      let b1 := b.setHalf h q
      (s.setBucket b1).sendBodies id (s.ringNext p.phase h p.ag) (bodies b1 (q.head h))
    else s

/-- Whether a step is the last one of its phase. -/
def State.lastStep (s : State) (p : HalfPos) : Bool := decide (s.pit.size p.phase ≤ p.step + 2)

/-- A step of the pre-pass: the maximum of the bytes, or the reduced bytes on their way back (R302). -/
def State.byteHop (s : State) (b : Bucket) (h : Bool) : State :=
  let p := b.half h
  let r := s.recvSeg p h
  let new := (rangeFrom r.1 r.2).filterMap fun u =>
    (byteOf (s.stepNow b h) u).map fun x =>
      let own : Byte := ((p.prebytes.find? fun y => y.1 == u).map (·.2)).getD 0x80
      if p.ag then x else (u, if toSigned 8 own.toNat < toSigned 8 x.2.toNat then x.2 else own)
  let last := s.lastStep p
  let q := { p with
    prebytes := putBytes p.prebytes new
    range := if last && !p.ag then segmentOf p.now (s.pit.size p.phase) (s.ringHere p.phase) :: p.range else p.range }
  let s1 := s.setBucket (b.setHalf h q)
  if last then s1.nextPhase b.id h else s1.stepOn b.id h fun b1 hd => byteBodies b1 hd new

/-- A step of an all-gather: the units received, under the NaR policy, are delivered and go on (R295, R306; log entry 165). -/
def State.gatherHop (s : State) (b : Bucket) (h : Bool) : State :=
  let p := b.half h
  let r := s.recvSeg p h
  let incs := (rangeFrom r.1 r.2).filterMap (incomingOf b.desc.fmt (s.stepNow b h))
  let outs := incs.map (arriveUnit b.desc)
  let units := outs.map (·.unit)
  let cands := incs.filterMap (·.origin) ++ outs.flatMap (·.cands)
  let q := { p with units := joinUnits p.units units, cands := cands.foldl (fun l o => addCand o l) p.cands }
  let s0 := outs.foldl (fun s o => s.collCount b.id o 0) s
  let s1 := (s0.setHalf b.id h q).deliverUnits b.id units
  if s.lastStep p then s1.nextPhase b.id h else s1.stepOn b.id h fun b1 hd => unitBodies b1 hd units q.cands

/-- A step of a reduce phase: every unit of the segment gains this member's contribution (R303). -/
def State.reduceHop (s : State) (b : Bucket) (h : Bool) : State :=
  let p := b.half h
  let r := s.recvSeg p h
  let gs := s.stepNow b h
  let own := s.ownUnits b p r
  let s0 := if p.fromSrc then s.collReadSrc b.id r else s
  let (s1, units, cands) := own.foldl (fun (acc : State × List UnitVal × List Origin) o =>
    match incomingOf b.desc.fmt gs o.unit.idx with
    | none => acc
    | some inc =>
      let out := hopUnit b.desc s.fab.faddr (p.agreed b.desc o.unit.idx) inc o.unit o.rd o.cands
      (acc.1.collCount b.id { out with ovf := out.ovf + o.ovf } o.win, acc.2.1 ++ [out.unit], acc.2.2 ++ out.cands)) (s0, [], [])
  if s.lastStep p then
    let q := { p with
      units := units, cands := cands, range := segmentOf p.now (s.pit.size p.phase) (s.ringHere p.phase) :: p.range }
    ((s1.setHalf b.id h q).reduced b.id h).nextPhase b.id h
  else s1.stepOn b.id h fun b1 hd => unitBodies b1 hd units cands

/-- When both halves are through: the main pass follows the pre-pass, or the pass is over. Under shard delivery it becomes visible
at the next boundary. -/
def State.joinHalves (s : State) (id : BitVec 12) : State :=
  match s.bucket id with
  | none => s
  | some b =>
    if b.half0.past && b.half1.past then
      if b.state = .prepass then s.startRing id false
      else if b.ended.isNone then s.setBucket { b with ended := some (s.tk.tickCount.toNat + b2n b.desc.shard) }
      else s
    else s

/-- ADDING_HOP: the present step of a half runs once all its packets are visible and the reservation has given it all that it takes. -/
def State.addingHop (s : State) (id : BitVec 12) (h : Bool) : State :=
  match s.bucket id with
  | none => s
  | some b =>
    let p := b.half h
    if !s.running || s.tk.haltTaken || !(b.state == .running || b.state == .prepass) || s.pit.axes.isEmpty || p.past || !s.stepReady b h || !s.paidUp b h then s
    else
      let gs := b.stepSegs (p.head h)
      let b1 := { b with segs := b.segs.filter fun g => !gs.contains g }
      let s1 :=
        if p.pre then s.byteHop b h
        else if p.ag then s.gatherHop b h
        else s.reduceHop b h
      let s2 := match s1.bucket id with | some b2 => s1.setBucket { b2 with segs := b1.segs } | none => s1
      s2.joinHalves id

def execAddingHop (id : BitVec 12) (h : Bool) (s : State) : Result := .next (s.addingHop id h)

/-! ### COLL_PASS_END (R291, R305, R307) -/

/-- The fallback list: entries in ascending unit order, as many as it holds (R305). -/
def State.writeFallbacks (s : State) (b : Bucket) : State :=
  let order := (List.range b.desc.units).filterMap fun u => b.fallen.find? fun x => x.idx == u
  let kept := order.take b.desc.fbEntries
  let bytes := kept.flatMap fallbackEntry
  let s1 := s.setBucket { b with fbLost := satAdd 16 b.fbLost (order.length - kept.length) }
  if bytes.isEmpty then s1
  else if b.broken then s1.freeFill b.desc.fbAddr.toNat bytes.length
  else { s1 with mem := s1.mem.writeBytes b.desc.fbAddr.toNat bytes [] }

/-- NAR_ORIGIN takes the first pass's candidate among the units delivered: the earliest end tick, then the lower ID (R307). -/
def Coll.keepOrigin (c : Coll) (b : Bucket) (end_ : Nat) : Coll :=
  let cands := ((b.half0.cands ++ b.half1.cands).filter fun o => b.written.contains o.unit)
  match lowestCand cands with
  | none => c
  | some o =>
    let new : NarOrigin := ⟨o.kind, b.id, b.pass, o.faddr, o.elem, o.unit⟩
    match c.origin with
    | none => { c with origin := some new }
    | some old =>
      let oldEnd := (c.buckets.find? fun x => x.id == old.bucket && x.pass == old.pass).map fun x => x.endTick.toNat
      let sooner := match oldEnd with | some x => decide (end_ < x) || (end_ == x && decide (b.id.toNat < old.bucket.toNat)) | none => false
      if sooner then { c with origin := some new } else c

/-- The pass of a bucket ends: delivery is visible, and COLL_ARM replies. -/
def State.passEnd (s : State) (id : BitVec 12) : State :=
  match s.bucket id with
  | none => s
  | some b =>
    match b.ended with
    | none => s
    | some e =>
      if s.tk.tickCount.toNat < e ∨ !b.state.armed then s
      else
        let s1 := s.writeFallbacks b
        match s1.bucket id with
        | none => s1
        | some b1 =>
          let s2 : State := { s1 with coll := s1.coll.keepOrigin b1 e }
          let s3 := s2.setBucket { b1 with
            state := .unarmed, endTick := BitVec.ofNat 64 e, tkt := none, half0 := HalfPos.idle, half1 := HalfPos.idle, segs := [], ended := none }
          match b.tkt with
          | none => s3
          | some t => if b.poisoned.isEmpty then s3.finish t .ok [] else s3.finish t .memPoisoned (poisonPayload b.poisoned)

def execCollPassEnd (id : BitVec 12) (s : State) : Result := .next (s.passEnd id)

/-! ### COLL_STEP_TIMEOUT (R297) -/

/-- A half whose present step is missing STALL_LIMIT ticks after it was due. -/
def State.halfStalled (s : State) (b : Bucket) (h : Bool) : Bool :=
  let p := b.half h
  !p.past && decide (p.due + s.cfg.stallLimit.toNat ≤ s.tk.tickCount.toNat) && !s.stepReady b h

def State.stepTimeout (s : State) (id : BitVec 12) : State :=
  match s.bucket id with
  | none => s
  | some b =>
    if !(b.state == .running || b.state == .prepass) || s.pit.axes.isEmpty then s
    else
      let rec_ := fun (p : HalfPos) =>
        s.raise 0x0405 .module 0 (leBytes 2 id.toNat ++ [BitVec.ofNat 8 p.phase, BitVec.ofNat 8 p.step])
      if s.halfStalled b false then rec_ b.half0 else if s.halfStalled b true then rec_ b.half1 else s

def execCollStepTimeout (id : BitVec 12) (s : State) : Result := .next (s.stepTimeout id)

/-! ### Halts and PIT_DESTROY (R309) -/

/-- Units of a bucket not yet delivered leave DST undefined, and SRC where DST is SRC (R309); those delivered keep their bytes. -/
def State.undeliver (s : State) (b : Bucket) : State :=
  let d := b.desc
  let open_ := (List.range d.units).filter fun u => !b.written.contains u
  let s1 := open_.foldl (fun s u => s.freeFill (d.dst.toNat + u * d.dstBytes) d.dstBytes) s
  if d.dst = d.src ∧ d.dstBytes ≠ d.srcBytes then
    let s2 := open_.foldl (fun s u => s.freeFill (d.src.toNat + u * d.srcBytes) d.srcBytes) s1
    b.written.foldl (fun s2 u =>
      let a := d.dst.toNat + u * d.dstBytes
      { s2 with mem := s2.mem.writeBytes a (s.mem.bytes a d.dstBytes) (s.mem.markedIn a d.dstBytes) }) s2
  else s1

/-! ### Sends that a halt discards -/

/-- Flits of a queue without the packets that begin in it and that `drop` names by their first flit. -/
def dropFlits (drop : Flit → Bool) : Bool → List Flit → List Flit
  | _, [] => []
  | inside, x :: r =>
    if (if x.sop then drop x else inside) then dropFlits drop (!x.eop) r else x :: dropFlits drop false r

/-- A segment of this module for a bucket, by its packet's first bytes: KIND, SRC and the segment header's BUCKET (R274, R298). -/
def State.ownSegment (s : State) (id : BitVec 12) (header body : List Byte) : Bool :=
  leAt header 8 1 == 0x05 && leAt header 6 2 == s.fab.faddr.toNat && leAt body 4 2 % 4096 == id.toNat

/-- The sends of an aborted pass that still wait in the module are discarded. -/
def State.dropSends (s : State) (id : BitVec 12) : State :=
  { s with fab := { s.fab with
    own := s.fab.own.filter fun k => !(k.kind == 0x05 && s.ownSegment id (packetHeader k) k.body)
    ports := s.fab.ports.map fun x => { x with q2 := dropFlits (fun f => s.ownSegment id f.payload (f.payload.drop 32)) false x.q2 } } }

/-- One pass is aborted. -/
def State.abortPass (s : State) (tick : Nat) (b : Bucket) : State :=
  if !b.state.armed then s
  else
    let s1 := if b.ended.isSome then s else s.undeliver b
    let s2 := (s1.dropSends b.id).setBucket { b with
      state := .unarmed, tkt := none, half0 := HalfPos.idle, half1 := HalfPos.idle, segs := [], full := false, fills := 0, ended := none }
    match b.tkt with
    | none => s2
    | some t => s2.finish t .notReady (0x10 :: zeros 7 ++ leBytes 8 tick)

/-- A halt aborts every pass that has not ended. -/
def State.abortPasses (s : State) (tick : Nat) : State :=
  (s.coll.buckets.filter fun b => match b.ended with | some e => decide (tick < e) | none => true).foldl (fun s b => s.abortPass tick b) s

/-- PIT_DESTROY aborts and removes every bucket (R290, R309). -/
def State.destroyBuckets (s : State) (tick : Nat) : State :=
  let s1 := s.coll.buckets.foldl (fun s b => s.abortPass tick b) s
  { s1 with coll := { s1.coll with buckets := [] } }

/-- The tick's totals join the counters of R311 at the boundary. -/
def State.collTotals (s : State) : State :=
  let c := s.coll
  { s with coll := { c with
    esc := satAdd 32 c.esc c.totEsc, fallback := satAdd 32 c.fallback c.totFb, quar := satAdd 32 c.quar c.totQuar
    totEsc := 0, totFb := 0, totQuar := 0 } }

end Sys2Proof.Machine
end

