-- ==== Sys2Proof/Machine/Power.lean ====
section
/-! DEFINITION. Main power and its protection: enabling and losing it (R340, R342, R351), supply sag (R349 to R351, R367, R368),
sensors and thermal limits (R27, R374, R377), leaks (R375), and chain enumeration (R380). -/

namespace Sys2Proof.Machine

/-! ### Readings (R374) -/

/-- A binary32 reading as a number; an infinity or a NaN has none. -/
def readingOf (r : BitVec 32) : Option Rat :=
  match ieeeDecode 8 23 r.toNat with
  | .fin q => some q
  | _ => none

/-- A reading lies within closed bounds. -/
def within (r : BitVec 32) (lo hi : Rat) : Bool :=
  match readingOf r with
  | some q => decide (lo ≤ q) && decide (q ≤ hi)
  | none => false

/-- Halt limit of a sensor but sensor 1, and its stop limit (R374). -/
def haltLimit (n : Nat) : Option Rat :=
  if n = 0 then some 40
  else if n = 1 then none
  else if n ≤ 10 then some 105
  else if n ≤ 26 then some 95
  else if n ≤ 28 then some 110
  else none

def stopLimit (n : Nat) : Option Rat :=
  if n = 0 then some 45
  else if n = 1 then some 60
  else if n ≤ 10 then some 115
  else if n ≤ 26 then some 105
  else if n ≤ 28 then some 125
  else none

/-- Outlet less inlet lies above a limit. -/
def riseAbove (r : Readings) (lim : Rat) : Bool :=
  match readingOf (sensorOf r 0), readingOf (sensorOf r 1) with
  | some i, some o => decide (lim < o - i)
  | _, _ => above (sensorOf r 1) 1000000

/-- A sensor stands past its halt limit, moved down by `less`. -/
def pastHalt (r : Readings) (n : Nat) (less : Rat) : Bool :=
  if n = 1 then riseAbove r (15 - less)
  else match haltLimit n with
    | some l => above (sensorOf r n) (l - less)
    | none => false

def pastStop (r : Readings) (n : Nat) : Bool :=
  match stopLimit n with
  | some l => above (sensorOf r n) l
  | none => false

/-- Every reading has fallen 5 K below its halt limit (R374). -/
def cooled (r : Readings) : Bool := (List.range 30).all fun n => !pastHalt r n 5

/-! ### The sensor block (R377) -/

def maxReading (l : List (BitVec 32)) : BitVec 32 :=
  l.foldl (fun m x =>
    match readingOf m, readingOf x with
    | some a, some b => if a < b then x else m
    | none, some _ => x
    | _, none => m) (l.headD 0)

/-- Distance of a sensor from its halt limit. -/
def marginOf (r : Readings) (n : Nat) : Option Rat :=
  if n = 1 then
    match readingOf (sensorOf r 0), readingOf (sensorOf r 1) with
    | some i, some o => some (15 - (o - i))
    | _, _ => none
  else
    match haltLimit n, readingOf (sensorOf r n) with
    | some l, some q => some (l - q)
    | _, _ => none

/-- The sensor nearest its halt limit, the lowest on a tie. -/
def hotSensor (r : Readings) : Nat :=
  (List.range 29).foldl (fun b n =>
    match marginOf r b, marginOf r n with
    | some x, some y => if y < x then n else b
    | none, some _ => n
    | _, none => b) 0

/-- The 64 bytes that the Weighbridge serves over I3C. -/
def State.sensorBlock (s : State) : List Byte :=
  let r := s.pwr.block
  let t := fun lo n => maxReading ((r.temps.drop lo).take n)
  let high := within r.vMain 60 66
  [0x20, BitVec.ofNat 8 (b2n s.pwr.main + 2 * b2n r.rope + 4 * b2n r.leakIn + 8 * b2n high), 0, 0]
    ++ leBytes 4 r.vMain.toNat ++ leBytes 4 r.iMain.toNat ++ leBytes 4 r.pAvg.toNat ++ leBytes 4 r.vStby.toNat
    ++ leBytes 4 (sensorOf r 0).toNat ++ leBytes 4 (sensorOf r 1).toNat ++ leBytes 4 (t 2 9).toNat ++ leBytes 4 (t 11 16).toNat
    ++ [BitVec.ofNat 8 (hotSensor r)] ++ zeros 27

/-- ALERT_N (R338): asserted while ERR_PRIMARY holds a record or a rule asserts it. -/
def State.alertN (s : State) : Bool := s.errs.primary.isSome || s.errs.alertP3 || s.errs.alertHigh

/-- LEAK_N as the module drives it (R375). -/
def State.leakN (s : State) : Bool := s.pwr.leakOwn

/-! ### Power off (R342, R351) -/

def Face.off (x : Face) : Face := { Face.reset with bypassMap := x.bypassMap, pendingMap := x.pendingMap }

/-- What the Weighbridge remembers of the readiness of the image it runs (R362). -/
def State.noteReady (s : State) : State :=
  { s with fw := { s.fw with
      lastReady := s.fw.lastReady ||| BitVec.ofNat 64 s.readyMap
      lastFaces := if s.pwr.main then s.faces.map (·.state) else s.fw.lastFaces } }

/-- The main regulators stop: READY_MAP keeps STANDBY and WEIGHBRIDGE, every Face reads OFF, and all that is volatile is lost. -/
def State.powerOff (s : State) : State :=
  let s := s.noteReady
  { s with
    tk := TickRegs.reset, cfg := Cfg.reset, sched := Sched.reset, pit := Pit.reset, twin := Twin.reset
    faces := s.faces.map Face.off, mem := Mem.reset, strm := Streams.reset, coll := Coll.reset, fab := Fabric.reset
    host := { HostIf.reset with hostMem := s.host.hostMem }, cnt := Counters.zero, bists := [], loads := []
    errs := { s.errs with alertP3 := false }
    pwr := { s.pwr with
      main := false, ramping := false, hub := false, derrick := false, host := false, dies := 0, trained := 0
      tries := List.replicate 16 0, stopStandby := false, stopThermal := false, stopLeak := false } }

def State.anyPower (s : State) : Bool := s.pwr.main || s.pwr.ramping

/-- MAIN_POWER_LOSS. -/
def execMainPowerLoss (s : State) : Result := .next (if s.anyPower then s.powerOff else s)

/-! ### Enabling main power (R340) -/

/-- What R340, R374 and R375 ask besides the inputs. -/
def State.mayRestart (s : State) : Bool :=
  s.pwr.standby && s.pwr.weighbridge && !s.anyPower && !s.pwr.leakOwn && !s.pwr.leakExt && !s.pwr.leakHold
    && !(s.pwr.thermHold && !cooled s.pwr.block)

/-- Nor does the main input's sag or its open switch bar it (R351, R367). -/
def State.mayEnable (s : State) : Bool := s.mayRestart && !s.pwr.sag && !s.pwr.switchOpen

/-- The standby input stands at 4.6 V or more, and the inlet at or below 40 °C (R340, R368). -/
def suppliesOk (vStby inlet : BitVec 32) : Bool := within vStby (46 / 10) 1000000 && !above inlet 40

def State.startRamp (s : State) : State := { s with pwr := { s.pwr with ramping := true, thermHold := false } }

/-- MAIN_ENABLE: main input within 40–60 V, standby at 4.6 V or more, inlet at or below 40 °C (R340, R367, R368). -/
def execMainEnable (vMain vStby inlet : BitVec 32) (s : State) : Result :=
  .next (if s.mayEnable && within vMain 40 60 && suppliesOk vStby inlet then s.startRamp else s)

/-- A Face when main power comes on (R342): its maps and its retirement from its repair record. -/
def Face.powerOn (_ : Face) (r : Repair) : Face :=
  { Face.reset with
    bypassMap := r.bypass, pendingMap := r.pending
    state := if r.retired then .retired else .testing
    cause := if r.retired then (if r.shipped then 0x06 else 0x05) else 0 }

/-- MAIN_RAMP_DONE: MAIN rises. -/
def execMainRampDone (s : State) : Result :=
  .next (if s.pwr.ramping then
    { s with
      pwr := { s.pwr with main := true, ramping := false }
      faces := List.zipWith Face.powerOn s.faces s.flash.repairs }
  else s)

/-! ### Supply sag (R349 to R351, R367, R368) -/

/-- BULK_LOW with a voltage, and the power event to the Pit (R279, R349). The Pit halts with cause 6 by the record (R333). -/
def State.bulkLow (s : State) (v : BitVec 32) : State := (s.raise 0x0408 .module 0 (leBytes 4 v.toNat)).toPit 0x13 none

/-- The comparator sees its node fall to 40 V while the regulators are enabled, also while they ramp: once for one sag (R349; log entry
166). -/
def State.comparator (s : State) (v : BitVec 32) : State :=
  if s.anyPower && !s.pwr.sag then { s with pwr := { s.pwr with sag := true } }.bulkLow v else s

/-- BULK_LOW_DETECT. -/
def execBulkLowDetect (vMain : BitVec 32) (s : State) : Result := .next (s.comparator vMain)

/-- REGULATOR_STOP: the input reaches 36 V. -/
def execRegulatorStop (s : State) : Result := .next (if s.anyPower then s.powerOff else s)

/-- SAG_CLEAR. -/
def execSagClear (s : State) : Result := .next (if s.anyPower then { s with pwr := { s.pwr with sag := false } } else s)

/-- MAIN_INPUT_RESTORE: after a stop, the module restarts where R340 allows it, by the last readings of the standby input and the inlet.
The input switch closes on the restart alone (R351, R367, R368). -/
def execMainInputRestore (s : State) : Result :=
  .next (if s.anyPower then s
    else if s.mayRestart && suppliesOk s.pwr.block.vStby (sensorOf s.pwr.block 0) then
      { s with pwr := { s.pwr with sag := false, switchOpen := false } }.startRamp
    else { s with pwr := { s.pwr with sag := s.pwr.sag && s.pwr.switchOpen } })

/-- OVERCURRENT: the input switch opens, and the comparator sees the voltage of its node (R367). -/
def execOvercurrent (vNode : BitVec 32) (s : State) : Result :=
  .next (if s.anyPower && !s.pwr.switchOpen then { s with pwr := { s.pwr with switchOpen := true } }.comparator vNode else s)

/-- HIGH_INPUT and HIGH_INPUT_END (R367). -/
def execHighInput (s : State) : Result := .next { s with errs := { s.errs with alertHigh := true } }
def execHighInputEnd (s : State) : Result := .next { s with errs := { s.errs with alertHigh := false } }

/-- STANDBY_LOW: handled as a sag with a record of its own, and a stop 200 µs after it (R368). -/
def execStandbyLow (vMain : BitVec 32) (s : State) : Result :=
  .next (if s.anyPower && !s.pwr.stopStandby then { s with pwr := { s.pwr with stopStandby := true } }.bulkLow vMain else s)

def execStandbyLowStopTimer (s : State) : Result := .next (if s.pwr.stopStandby && s.anyPower then s.powerOff else s)

/-! ### Sensors (R27, R374) -/

/-- The unit of a sensor (R335). -/
def sensorUnit (n : Nat) : EUnit :=
  if 2 ≤ n ∧ n ≤ 9 then .die (n - 2) else if n = 10 then .hub else if 11 ≤ n ∧ n ≤ 26 then .stack (n - 11)
  else if n = 29 then .standby else .module

/-- THERMAL for one excursion of a sensor. -/
def State.thermal (s : State) (n : Nat) (reading : BitVec 32) : State :=
  if s.pwr.latched.contains n then s
  else
    { s with pwr := { s.pwr with latched := nins n s.pwr.latched } }.raise 0x0409 (sensorUnit n) 0
      ([BitVec.ofNat 8 n, 0, 0, 0] ++ leBytes 4 reading.toNat)

/-- No Pit of the module runs: it belongs to none, or its Pit is stopped. -/
def State.quiet (s : State) : Bool := s.pit.id == 0 || s.tk.run == .stopped

/-- A reading past its stop limit: THERMAL, and the regulators stop, at once where no Pit runs. -/
def State.thermalStop (s : State) (n : Nat) (reading : BitVec 32) : State :=
  let quiet := s.quiet
  let s1 := s.thermal n reading
  let s2 : State := { s1 with pwr := { s1.pwr with thermHold := true } }
  if !s2.anyPower then s2
  else if quiet then s2.powerOff
  else { s2 with pwr := { s2.pwr with stopThermal := true } }

/-- One sensor of a poll. -/
def State.pollSensor (r : Readings) (s : State) (n : Nat) : State :=
  if pastStop r n then s.thermalStop n (sensorOf r n)
  else if pastHalt r n 0 then (if 2 ≤ n then s.thermal n (sensorOf r n) else s)
  else { s with pwr := { s.pwr with latched := s.pwr.latched.filter (· ≠ n) } }

/-- The inlet in a P3 epoch (R27): a rise above 30 °C raises COOLANT_P3 and asserts ALERT_N until 29 °C. -/
def State.pollInlet (s : State) (old new : BitVec 32) : State :=
  let s := if s.pwr.hub && s.cfg.clockCur == 3 && above new 30 && !above old 30 then
      { s with errs := { s.errs with alertP3 := true } }.raise 0x0101 .module 0 (leBytes 4 new.toNat)
    else s
  if above new 29 then s else { s with errs := { s.errs with alertP3 := false } }

/-- A leak that the Weighbridge sees for the first time since the rope was dry, or LEAK_N inactive, raises LEAK (R375). -/
def State.leak (s : State) (own : Bool) : State :=
  if if own then s.pwr.leakOwn else s.pwr.leakExt then s
  else
    { s with pwr := { s.pwr with
        leakOwn := s.pwr.leakOwn || own, leakExt := s.pwr.leakExt || !own, leakHold := true, stopLeak := s.pwr.stopLeak || s.anyPower } }.raise
      0x040A .module 0 [if own then 0 else 1]

/-- What a poll sees of the rope and of LEAK_N. -/
def State.pollLeaks (s : State) (r : Readings) : State :=
  let s1 := if r.rope then s.leak true else { s with pwr := { s.pwr with leakOwn := false } }
  if r.leakIn then s1.leak false else { s1 with pwr := { s1.pwr with leakExt := false } }

/-- SENSOR_POLL. -/
def execSensorPoll (r : Readings) (s : State) : Result :=
  .next (if s.pwr.weighbridge then
    let old := sensorOf s.pwr.block 0
    let s := ({ s with pwr := { s.pwr with block := r } }.pollInlet old (sensorOf r 0)).pollLeaks r
    (List.range 30).foldl (State.pollSensor r) s
  else s)

/-- THERMAL_HALT_PERSIST: a reading past its halt limit for the time that the limit requires. -/
def execThermalHaltPersist (sensor : Fin 30) (reading : BitVec 32) (s : State) : Result :=
  .next (if s.pwr.weighbridge && pastHalt { s.pwr.block with temps := s.pwr.block.temps.set sensor.val reading } sensor.val 0 then
    s.thermal sensor.val reading
  else s)

/-- THERMAL_STOP_TIMER. -/
def execThermalStopTimer (s : State) : Result := .next (if s.pwr.stopThermal && s.anyPower then s.powerOff else s)

/-! ### Leaks (R375) -/

/-- LEAK_DETECT: the rope is wet, or another party asserts LEAK_N. -/
def execLeakDetect (own : Bool) (s : State) : Result :=
  .next (if s.pwr.weighbridge then s.leak own else s)

/-- LEAK_STOP_TIMER. -/
def execLeakStopTimer (s : State) : Result := .next (if s.pwr.stopLeak && s.anyPower then s.powerOff else s)

/-- LEAK_CLEAR_TIMER: LEAK_N has been inactive for 60 s. -/
def execLeakClearTimer (s : State) : Result :=
  .next { s with pwr := { s.pwr with leakOwn := false, leakExt := false, leakHold := false } }

/-! ### Chain enumeration (R380) -/

/-- ENUMERATION_TRAIN of k pulses; a train has at least one. -/
def execEnumerationTrain (pulses : Nat) (s : State) : Result :=
  .next (if s.pwr.weighbridge && decide (0 < pulses) then
    { s with pwr := { s.pwr with chainAddr := BitVec.ofNat 8 (pulses - 1) } }.emit (.pulses (pulses + 1))
  else s)

/-- CHAIN_ENUM_TIMEOUT: the module reports the unassigned address. -/
def execChainEnumTimeout (s : State) : Result := .next { s with pwr := { s.pwr with chainAddr := 0x7F } }

/-- The module's I3C dynamic address, where it has one. -/
def State.i3cAddr (s : State) : Option Nat := if s.pwr.chainAddr = 0x7F then none else some (0x10 + s.pwr.chainAddr.toNat)

end Sys2Proof.Machine
end

