-- ==== Sys2Proof/Machine/Bringup.lean ====
section
/-! DEFINITION. Power-on tests and training (R340, R343), the PCIe link (R381), BIST_RUN (R344, R345) and faults that a Face's
checkers find (R345). -/

namespace Sys2Proof.Machine

/-- DIE_START_DONE: the dies' networks and Stockpiles accept work. -/
def execDieStartDone (s : State) : Result := .next (if s.pwr.hub then { s with pwr := { s.pwr with dies := 0xFF } } else s)

/-! ### Power-on BIST (R342, R343) -/

def postOf (l : List PostResult) (f : FaceId) : PostResult := (l.find? fun r => r.face == f).getD ⟨f, 0, false, false⟩

/-- A Face leaves its power-on BIST: every group found or pending is bypassed. The cases stand in the order of R342's table. -/
def Face.post (x : Face) (r : PostResult) : Face :=
  let map := x.bypassMap ||| x.pendingMap ||| r.groups
  let (st, cause) : FaceSt × Byte :=
    if 4 < popcount16 map then (.faulty, 4)
    else if r.logicBad then (.faulty, 2)
    else if r.bankBad then (.faulty, 3)
    else if map = 0 then (.ready, 0)
    else (.bypassed, 1)
  { x with bypassMap := map, pendingMap := 0, state := st, cause := cause }

/-- A Face that a BIST_RUN took out of its power-on BIST ends it under the test: it goes on reading TESTING, and the test returns it to
what the power-on BIST found (R345). -/
def Face.postUnder (x : Face) (r : PostResult) : Face :=
  let y := x.post r
  { y with state := x.state, prior := y.state }

/-- The Face is under a BIST_RUN rather than the power-on BIST. -/
def State.underBist (s : State) (f : FaceId) : Bool := s.bists.any fun j => j.kind == 0 && j.faces.contains f

/-- POWER_ON_BIST_DONE. -/
def State.postDone (s : State) (res : List PostResult) : State :=
  if s.pwr.dies = 0 then s
  else
    (allFaces.foldl (fun s f =>
      if (s.face f).state ≠ .testing then s
      else if !s.underBist f then s.updFace f fun x => x.post (postOf res f)
      else if (s.face f).prior = .testing then s.updFace f fun x => x.postUnder (postOf res f)
      else s) s).syncRepairs

def execPowerOnBistDone (res : List PostResult) (s : State) : Result := .next (s.postDone res)

/-! ### HBM training (R340) -/

/-- HBM_TRAINING_DONE: the stack joins the map, trains once more, or stays out with a record. -/
def State.trainingDone (s : State) (m : StackId) (ok : Bool) : State :=
  let n := s.pwr.tries.getD m.val 0
  let bit_ := BitVec.ofNat 16 (2 ^ m.val)
  if s.pwr.dies = 0 ∨ s.pwr.trained.getLsbD m.val ∨ 2 ≤ n then s
  else if ok then
    { s with pwr := { s.pwr with trained := s.pwr.trained ||| bit_ }, mem := { s.mem with hbmLive := s.mem.hbmLive ||| bit_ } }
  else
    let s1 : State := { s with pwr := { s.pwr with tries := s.pwr.tries.set m.val (n + 1) } }
    if n = 0 then s1 else s1.raise 0x0105 (.stack m.val) 0 [0]

def execHbmTrainingDone (m : StackId) (ok : Bool) (s : State) : Result := .next (s.trainingDone m ok)

/-! ### The PCIe link (R381) -/

def execPerstNRelease (s : State) : Result := .next { s with pwr := { s.pwr with perstN := true } }

def execPcieLinkUp (s : State) : Result :=
  .next (if s.pwr.hub && s.pwr.perstN then { s with pwr := { s.pwr with host := true } } else s)

def execPcieLinkDown (s : State) : Result := .next { s with pwr := { s.pwr with host := false } }

/-! ### BIST_RUN (R344) -/

/-- A stack's granules read as zeros with fresh check bits. -/
def Mem.scrubStack (m : Mem) (st : Nat) : Mem :=
  let keep := fun a => match m.region a with | .hbm x _ => x != st | _ => true
  { m with
    cells := m.cells.filter fun p => keep p.1
    poison := m.poison.filter keep, latentUe := m.latentUe.filter keep, latentCe := m.latentCe.filter keep }

def acceptBistRun : Accept := fun s pk t =>
  let kind := cmdArg pk 0 1
  let idx := cmdArg pk 1 1
  let fs := targetFaces pk.target
  let stopped := s.tk.run == .stopped
  answerIf (refusal [
      (decide (kind < 4), badArg 0), (!(kind == 1) || decide (idx < 16), badArg 1), (!(kind == 2) || decide (idx < 6), badArg 1),
      (cmdZero pk 2 30, badArg 2), (!(kind == 0) || fs.all fun f => (s.face f).state != .retired, badParam 8),
      (!(kind == 0 || kind == 1) || stopped, (.configBusy, [])),
      (!(kind == 2) || (s.portAt idx).state == .disabled, (.configBusy, [])), (!(kind == 3) || s.pit.id == 0, (.configBusy, []))])
    (let job : BistJob := ⟨t, kind, idx, if kind = 0 then fs else []⟩
     let s1 : State := { s with bists := s.bists ++ [job] }
     let s2 := job.faces.foldl (fun t f => t.updFace f fun x =>
       { x with prior := if s.underBist f then x.prior else x.state, state := .testing }) s1
     .later (if kind = 1 then { s2 with mem := s2.mem.scrubStack idx } else s2))

/-! ### BIST_DONE (R342, R344, R345) -/

/-- A tested Face's state after the test. -/
def Face.tested (x : Face) (r : PostResult) : Face :=
  if r.logicBad then { x with state := .faulty, cause := 2, bistPassed := false }
  else if r.bankBad then { x with state := .faulty, cause := 3, bistPassed := false }
  else { x with state := x.prior, bistPassed := x.prior == .faulty }

/-- One tested Face: its new groups enter PENDING_MAP with GROUP_PENDING. -/
def State.faceTested (s : State) (f : FaceId) (r : PostResult) : State := (s.updFace f fun x => x.tested r).markGroups f r.groups

/-- The payload of R344. -/
def bistPayload (result kind unit groups ms : Nat) : List Byte :=
  [BitVec.ofNat 8 result, BitVec.ofNat 8 kind, BitVec.ofNat 8 unit, 0] ++ leBytes 2 groups ++ zeros 2 ++ leBytes 4 ms ++ zeros 4

/-- The end of a test of Faces. -/
def State.facesTested (s : State) (j : BistJob) (res : BistResult) : State :=
  let rs := j.faces.map fun f => (f, postOf res.faces f)
  let failed := rs.filter fun x => x.2.logicBad || x.2.bankBad
  let grown := rs.filter fun x => (s.face x.1).freshGroups x.2.groups != 0
  let union := rs.foldl (fun (u : BitVec 16) x => u ||| (s.face x.1).freshGroups x.2.groups) 0
  let unit := ((failed ++ grown ++ rs).head?.map fun x => x.1.val).getD 0
  let result := if !failed.isEmpty then 2 else if !grown.isEmpty then 1 else 0
  let s1 := (rs.foldl (fun s x => s.faceTested x.1 x.2) s).syncRepairs
  s1.finish j.tkt .ok (bistPayload result 0 unit union.toNat res.ms.toNat)

/-- BIST_DONE: the test of the BIST_RUN that `key` names ends. -/
def State.bistDone (s : State) (key : CmdKey) (res : BistResult) : State :=
  match s.bists.find? fun j => j.tkt.key == key with
  | none => s
  | some j =>
    let s1 : State := { s with bists := s.bists.filter fun x => x.tkt.key ≠ key }
    if j.kind = 0 then s1.facesTested j res
    else
      let s2 : State := if j.kind = 1 then { s1 with mem := s1.mem.scrubStack j.index } else s1
      let s3 := if j.kind = 1 && !res.pass then s2.stackOut j.index 1 else s2
      s3.finish j.tkt .ok (bistPayload (if res.pass then 0 else 2) j.kind j.index 0 res.ms.toNat)

def execBistDone (key : CmdKey) (res : BistResult) (s : State) : Result := .next (s.bistDone key res)

/-! ### FACE_CHECKER_FAULT (R345) -/

def State.checkerFault (s : State) (f : FaceId) (unit : Byte) : State :=
  if (s.face f).state.inService then
    (s.updFace f fun x => { x with state := .faulty, cause := 7, running := false, stall := none, held := [], slip := 0 }).raise 0x0407
      (.face f.val) 0 [unit]
  else s

def execFaceCheckerFault (f : FaceId) (unit : Byte) (s : State) : Result := .next (s.checkerFault f unit)

end Sys2Proof.Machine
end

