-- ==== Sys2Proof/Machine/Firmware.lean ====
section
/-! DEFINITION. Firmware: pieces and their paths (R354 to R358), boot, activation and fallback (R359 to R361, R363), confirmation
(R362), FW_STATUS (R364), and the loss of standby power (R17). -/

namespace Sys2Proof.Machine

/-! ### The flash (R352) -/

/-- Regions of the standby flash. -/
inductive FlashRegion where
  | boot | module | settings | slotA | slotB | staging
  deriving DecidableEq, Repr

def FlashRegion.base : FlashRegion → Nat
  | .boot => 0 | .module => 0x00800000 | .settings => 0x01000000 | .slotA => 0x02000000 | .slotB => 0x1A000000 | .staging => 0x32000000

def FlashRegion.mib : FlashRegion → Nat
  | .boot | .module => 8 | .settings => 16 | .slotA | .slotB => 384 | .staging => 224

/-! ### Pieces (R354, R355) -/

def pieceLen : Nat := 65536

/-- Pieces that the staging area holds. -/
def stagingPieces : Nat := FlashRegion.staging.mib * 2 ^ 20 / pieceLen

/-- The fields of a piece header. -/
structure PieceHead where
  kind   : Nat
  id     : Nat
  idx    : Nat
  total  : Nat
  deriving DecidableEq, Repr

def pieceHead (b : List Byte) : PieceHead := ⟨leAt b 1 1, leAt b 4 4, leAt b 8 4, leAt b 12 4⟩

/-- First offset in a piece whose header field is malformed (R354, R5). -/
def pieceFault (b : List Byte) : Option Nat :=
  let h := pieceHead b
  (([(leAt b 0 1 == 0x20, 0), (decide (h.kind ≤ 4), 1), (zeroAt b 2 2, 2), (decide (h.id ≠ 0), 4), (decide (h.idx < h.total), 8),
    (decide (1 ≤ h.total ∧ h.total ≤ stagingPieces), 12), ((h.idx == 0) == (h.kind == 0), 1), (decide (1 ≤ leAt b 16 4 ∧ leAt b 16 4 ≤ 65504), 16),
    (zeroAt b 20 8, 20)] : List (Bool × Nat)).find? fun c => !c.1).map (·.2)

def pieceCrcOk (b : List Byte) : Bool := leAt b 28 4 == (crc32c (b.take 28 ++ zeros 4 ++ b.drop 32)).toNat

def Fw.running (w : Fw) : Option FwSlot := if w.runSlot then w.slotB else w.slotA
def Fw.other (w : Fw) : Option FwSlot := if w.runSlot then w.slotA else w.slotB
def Fw.setOther (w : Fw) (x : Option FwSlot) : Fw := if w.runSlot then { w with slotA := x } else { w with slotB := x }

def slotId (x : Option FwSlot) : Nat := match x with | some y => y.id.toNat | none => 0

/-- An IMAGE_ID that is in a slot, or below the staged image's (R355). -/
def Fw.rejects (w : Fw) (id : Nat) : Bool :=
  id == slotId w.slotA || id == slotId w.slotB || (match w.staged with | some st => decide (id < st.id.toNat) | none => false)

/-- The piece is held already. -/
def Fw.holds (w : Fw) (h : PieceHead) : Bool :=
  match w.staged with
  | some st => st.id.toNat == h.id && st.pieces.any fun p => p.idx == h.idx
  | none => false

/-- The staging area with one more piece; a later image replaces the staged one. -/
def Fw.store (w : Fw) (h : PieceHead) (b : List Byte) : Fw :=
  let p : Piece := ⟨h.idx, BitVec.ofNat 8 h.kind, b⟩
  { w with staged := some (match w.staged with
    | some st => if st.id.toNat = h.id then { st with pieces := st.pieces ++ [p] } else ⟨BitVec.ofNat 32 h.id, h.total, [p]⟩
    | none => ⟨BitVec.ofNat 32 h.id, h.total, [p]⟩) }

/-- The rows of R355 below the CRC check, and the state with the piece stored and relayed (R358). -/
def State.storePiece (s : State) (h : PieceHead) (b : List Byte) : Except Refuse State :=
  let w := s.fw
  if w.awaiting then .error (.configBusy, [])
  else if w.rejects h.id then .error (.fwRejected, [])
  else
    let other := match w.staged with | some st => st.id.toNat == h.id && st.total != h.total | none => false
    if other then .error (badParam2 40 12)
    else if w.holds h then .ok s
    else
      let w1 := w.store h b
      if w.relay then .ok ({ s with fw := { w1 with relaySent := w1.relaySent + 1 } }.emit (.i3cPiece b))
      else .ok { s with fw := w1 }

/-- FW_PIECE's checks of a piece against its parameters, and its effect. -/
def takePiece (s : State) (pk : CmdPacket) (b : List Byte) : Answer :=
  let h := pieceHead b
  answerIn s (firstRefusal [
      refusal [
        (cmdArg pk 0 4 == h.id, badParam2 32 4), (cmdArg pk 4 4 == h.idx, badParam2 36 8), (cmdArg pk 8 4 == h.total, badParam2 40 12),
        (cmdArg pk 12 1 == h.kind, badParam2 44 1)],
      (pieceFault b).map (badParam2 48),
      refusal [(pieceCrcOk b, (.badCrc, []))]])
    (match s.storePiece h b with
      | .error r => .reject s r
      | .ok s1 => .done s1 .ok [])

/-- The bytes of a piece buffer, and the bitmap of the datagrams it lacks (R356). -/
def PieceBuf.missing (x : PieceBuf) : Nat := bitsOf ((List.range 64).map fun i => !(x.parts.any fun p => p.1 == i))
def PieceBuf.whole (x : PieceBuf) : List Byte :=
  (List.range 64).flatMap fun i => ((x.parts.find? fun p => p.1 == i).map (·.2)).getD (zeros 1024)

/-- FW_PIECE (R355, R356). -/
def acceptFwPiece : Accept := fun s pk _ =>
  let src := cmdArg pk 16 8
  let form := refusal [(cmdZero pk 13 3, badArg 13), (cmdZero pk 24 8, badArg 24)]
  match pk.path with
  | .mgmt _ =>
    answerIf (firstRefusal [form, refusal [(src == 0, badArg 16)]])
      (match s.fw.bufs.find? fun x => x.id.toNat == cmdArg pk 0 4 && x.piece.toNat == cmdArg pk 4 4 with
        | none => .refuse (.fwIncomplete, leBytes 8 (2 ^ 64 - 1))
        | some x => if x.missing ≠ 0 then .refuse (.fwIncomplete, leBytes 8 x.missing) else takePiece s pk x.whole)
  | _ =>
    answerIf (firstRefusal [form, refusal [(decide (src % 64 = 0), badArg 16), (s.mem.cmdRangeOk src pieceLen, badArg 16)]])
      (withArtefact s src pieceLen fun s b => takePiece s pk b)

/-- FW_DATAGRAM: 1 KiB of a piece into one of four buffers (R356). The last of `bufs` was filled least recently. -/
def State.fwDatagram (s : State) (b : List Byte) : State :=
  let id := BitVec.ofNat 32 (leAt b 0 4)
  let piece := BitVec.ofNat 32 (leAt b 4 4)
  let off := leAt b 8 4
  let formed := decide (b.length = 1040 ∧ off % 1024 = 0 ∧ off < pieceLen) && zeroAt b 12 4
  if !s.pwr.weighbridge || !formed then s
  else
    let part := (off / 1024, b.drop 16)
    let mine := (s.fw.bufs.find? fun x => x.id == id && x.piece == piece).getD ⟨id, piece, []⟩
    let rest := s.fw.bufs.filter fun x => !(x.id == id && x.piece == piece)
    { s with fw := { s.fw with bufs := ({ mine with parts := part :: mine.parts.filter (·.1 ≠ part.1) } :: rest).take 4 } }

def execFwDatagram (bytes : List Byte) (s : State) : Result := .next (s.fwDatagram bytes)

/-- FW_RELAY_PIECE: accepted by R355 where relay is enabled; a refused piece leaves nothing (R358). -/
def State.relayPiece (s : State) (b : List Byte) : State :=
  if !s.pwr.weighbridge || !s.fw.relay || decide (b.length ≠ pieceLen) || (pieceFault b).isSome || !pieceCrcOk b then s
  else
    match s.storePiece (pieceHead b) b with
    | .ok s1 => s1
    | .error _ => s

def execFwRelayPiece (bytes : List Byte) (s : State) : Result := .next (s.relayPiece bytes)

/-! ### Settings and status -/

/-- The half in use. -/
def Fw.settings (w : Fw) : Option Settings := if w.runHalf then w.half1 else w.half0

/-- The relay setting goes into the settings store: into both halves while an image awaits confirmation (R361). -/
def Fw.setRelay (w : Fw) (on : Bool) : Fw :=
  let put := fun (h : Option Settings) => h.map fun x => { x with relay := on }
  { w with
    relay := on
    half0 := if w.awaiting || !w.runHalf then put w.half0 else w.half0
    half1 := if w.awaiting || w.runHalf then put w.half1 else w.half1 }

/-- FW_RELAY_ENABLE (R358). -/
def acceptFwRelayEnable : Accept := fun s pk _ =>
  answerIf (refusal [(decide (cmdArg pk 0 1 < 2), badArg 0), (cmdZero pk 1 31, badArg 1)])
    (.done { s with fw := s.fw.setRelay (cmdArg pk 0 1 == 1) } .ok [])

def slotRevs (x : Option FwSlot) : Nat := match x with | some y => y.revs.toNat | none => 0

/-- The payload of FW_STATUS (R364). -/
def Fw.status (w : Fw) : List Byte :=
  let (sid, held, total) := match w.staged with | some st => (st.id.toNat, st.pieces.length, st.total) | none => (0, 0, 0)
  [0x20, BitVec.ofNat 8 (b2n w.runSlot + 2 * b2n w.awaiting + 4 * b2n w.fallbackDue + 8 * b2n w.fellBack + 16 * b2n w.relay)]
    ++ leBytes 2 w.lastResult.toNat ++ [w.reason, BitVec.ofNat 8 w.boots, 0, 0] ++ leBytes 4 sid ++ leBytes 4 held ++ leBytes 4 total
    ++ leBytes 4 w.opMin ++ leBytes 8 (slotRevs w.running) ++ leBytes 8 (slotRevs w.other) ++ leBytes 4 (slotId w.running)
    ++ leBytes 4 (slotId w.other) ++ leBytes 4 w.relaySent.toNat ++ zeros 12

def acceptFwStatus : Accept := fun s _ _ => .done s .ok s.fw.status

/-! ### Confirmation (R362) -/

/-- How good a Face's state is (the manual says 'a better one'; log entry 54). -/
def FaceSt.worth : FaceSt → Nat
  | .off | .retired => 0 | .faulty => 1 | .testing => 2 | .bypassed => 3 | .ready => 4

/-- The self-check against the last boot of the previous image. -/
def State.selfCheck (s : State) : Bool :=
  (s.fw.prevReady.toNat &&& s.readyMap) == s.fw.prevReady.toNat
    && (s.faces.zip s.fw.prevFaces).all fun (x, p) => decide (p.worth ≤ x.state.worth)

/-- FW_CONFIRM (R362, R363). -/
def acceptFwConfirm : Accept := fun s _ _ =>
  if !s.fw.awaiting then .done s .ok []
  else if s.fw.fallbackDue then .refuse (.fwRejected, [])
  else if !s.selfCheck then .refuse (.notReady, [])
  else
    let w := s.fw
    let w1 := { w with awaiting := false, boots := 0, staged := none }
    .done { s with fw := if w.runHalf then { w1 with half0 := none } else { w1 with half1 := none } } .ok []

/-- OP_MIN_TICK: a minute of operation of an unconfirmed image (R363). -/
def execOpMinTick (s : State) : Result :=
  .next (if s.pwr.weighbridge && s.fw.awaiting then
    { s with fw := { s.fw with opMin := s.fw.opMin + 1, fallbackDue := s.fw.fallbackDue || decide (1440 ≤ s.fw.opMin + 1) } }
  else s)

/-! ### Boot (R359 to R361, R363) -/

def Fw.relayOf (w : Fw) : Bool := (w.settings.map (·.relay)).getD false

/-- Step 7 converts the settings of the running half into the new image's format, in the other half (R361). -/
def Fw.convert (w : Fw) (id : BitVec 32) : Fw :=
  let new := w.settings.map fun x => { x with image := id }
  if w.runHalf then { w with half0 := new } else { w with half1 := new }

/-- The boot code boots the other slot: the image was never confirmed (R363). Its staged pieces are discarded (log entry 55). -/
def Fw.fallBack (w : Fw) : Fw :=
  let w1 := { w with
    runSlot := !w.runSlot, runHalf := !w.runHalf, otherBad := true, awaiting := false, fallbackDue := false, fellBack := true
    lastResult := 0x0600, reason := 6, boots := 0, staged := none }
  { w1 with relay := w1.relayOf }

/-- A failed activation discards the staged pieces; a step that had begun to write the other slot leaves no image there (log
entry 56). -/
def Fw.failed (w : Fw) (why : Byte) (built : Bool) : Fw :=
  { (if built then w.setOther none else w) with staged := none, lastResult := 0x0600, reason := why }

def Staged.piece0 (st : Staged) : List Byte := ((st.pieces.find? fun p => p.idx == 0).map (·.bytes)).getD []

/-- SHA-384 of a slot (R359). -/
def slotSha (x : Option FwSlot) : BitVec 384 := match x with | some y => y.sha | none => 0

/-- Steps 1 to 7 of R359, with the key of the boot block. -/
def Fw.activate (w : Fw) (key : List Byte) (st : Staged) (flashOk : Bool) : Fw :=
  let p0 := st.piece0
  let base := slotSha w.running
  let ps := st.pieces.map fun p => (p.idx, p.bytes)
  if st.pieces.length < st.total then { w with lastResult := 0x0601, reason := 0 }
  else if Config.pkgGeneration p0 ≠ 2 then w.failed 4 false
  else if !Config.pkgSignatureOk key p0 then w.failed 3 false
  else if Config.pkgBase p0 ≠ base then w.failed 1 false
  else if !flashOk then w.failed 5 true
  else if Config.builtHashes ps base ≠ Config.pkgHashes p0 then w.failed 2 true
  else
    let w1 := (w.setOther (some ⟨st.id, Config.pkgRevs p0, Config.pkgHashes p0, Config.builtSha ps base, Config.pkgRoundRev p0⟩)).convert st.id
    { w1 with
      runSlot := !w.runSlot, runHalf := !w.runHalf, otherBad := false, boots := 1, opMin := 0, awaiting := true, fallbackDue := false
      lastResult := 0, reason := 0, prevReady := w.lastReady, prevFaces := w.lastFaces }

/-- What a boot does with the slots. In the middle of a run it boots the slot that runs, and a fallback or an activation waits for the
next boot, so that a running Pit never sees its AID change (R363; log entry 154). -/
def Fw.boot (w : Fw) (key : List Byte) (busy flashOk : Bool) : Fw :=
  let w0 := { w with relaySent := 0, bufs := [] }
  let due := if w0.awaiting then w0.fallbackDue || decide (4 ≤ w0.boots + 1) else w0.staged.isSome
  if busy && due then { w0 with fellBack := false }
  else if w0.awaiting then
    if w0.fallbackDue || decide (4 ≤ w0.boots + 1) then w0.fallBack else { w0 with boots := w0.boots + 1, fellBack := false }
  else
    let w1 := { w0 with fellBack := false }
    match w1.staged with
    | some st => w1.activate key st flashOk
    | none => w1

/-- WEIGHBRIDGE_BOOT: at standby power-up, or by the watchdog (R359). Readiness is remembered anew from here (R362). -/
def State.weighbridgeBoot (s : State) (flashOk : Bool) : State :=
  let cold := !s.pwr.weighbridge
  let s := s.noteReady
  let w := s.fw.boot s.flash.bootKey s.running flashOk
  let sent := if cold then 0 else s.fw.relaySent
  { s with
    fw := { w with relaySent := sent, lastReady := 0, lastFaces := [] }
    pwr := { s.pwr with standby := true, weighbridge := true, chainAddr := if cold then 0x7F else s.pwr.chainAddr } }

def execWeighbridgeBoot (flashOk : Bool) (s : State) : Result := .next (s.weighbridgeBoot flashOk)

/-! ### ERROR_RECORD (R336, R338) -/

/-- The Weighbridge takes the oldest raised record. -/
def State.errorRecord (s : State) : State :=
  match s.errs.raised with
  | [] => s
  | e :: rest =>
    let x := s.errs
    let l : Logged := ⟨x.lastSeq + 1, e⟩
    let y := { x with raised := rest, lastSeq := l.seq, log := (l :: x.log).take 4096 }
    let s1 :=
      if x.primary.isNone then ({ s with errs := { y with primary := some l } }).primaryIn
      else if x.secondary.isNone then { s with errs := { y with secondary := some l } }
      else { s with errs := { y with lost := satInc 32 x.lost, storm := true, lostFatal := x.lostFatal || e.cls == 3 } }
    s1.trace 3 0x0005 [l.seq]

def execErrorRecord (s : State) : Result := .next (if s.pwr.weighbridge then s.errorRecord else s)

/-! ### STANDBY_POWER_LOSS (R17, R339, R368) -/

/-- Records on their way still reach the persistent log (R368). -/
def State.drainRecords (s : State) : State := (List.range s.errs.raised.length).foldl (fun s _ => s.errorRecord) s

/-- The standby domain stops: the log and the flash keep their contents, and everything else is lost. -/
def State.standbyLoss (s : State) : State :=
  let s := if s.pwr.weighbridge then s.drainRecords else s
  let s := s.powerOff
  { s with
    errs := { Errs.reset with lastSeq := s.errs.lastSeq, log := s.errs.log }
    fw := { s.fw with bufs := [], relaySent := 0 }
    pwr := { Power.reset with standby := false, perstN := s.pwr.perstN } }

def execStandbyPowerLoss (s : State) : Result := .next s.standbyLoss

end Sys2Proof.Machine
end

