-- ==== Sys2Proof/Machine/Program.lean ====
section
/-! DEFINITION. PROG_LOAD and PROG_VERIFY (R327, R389, R245). What the manual does not lay out inside an image is a free value of
Config (log entry 21). -/

namespace Sys2Proof.Machine

/-- Bytes of HBM that a die grants in a 12-cycle round, by clock plan (R244). -/
def roundBytes (plan : BitVec 2) : Nat := if plan = 1 then 40000 else if plan = 2 then 32000 else 26666

/-- Bytes that the programs of a die's Faces claim in a round, `share` for those being loaded (R245). -/
def State.dieShare (s : State) (d : Nat) (share : FaceId → Option Nat) : Nat :=
  ((allFaces.filter fun f => f.val / 12 == d).map fun f =>
    match share f with
    | some n => n
    | none => (match (s.face f).prog with | some p => p.hbmShare | none => 0)).foldl (· + ·) 0

/-- Fields of a program image's header (R327). -/
def progOf (img : List Byte) (f : FaceId) (digest : Nat) : Prog :=
  let b1 := leAt img 1 1
  { clockPlan := BitVec.ofNat 2 (bits b1 1 0), powerCap := BitVec.ofNat 2 (bits b1 3 2), bstat := bit b1 4, hbmMode := bit b1 5
    tickPeriod := BitVec.ofNat 16 (leAt img 2 2), width := BitVec.ofNat 8 (leAt img 4 1), hbmLive := BitVec.ofNat 16 (leAt img 6 2)
    srSeed := BitVec.ofNat 64 (leAt img 8 8), loadOff := leAt img 16 4, shape := (leAt img 20 1, leAt img 21 1, leAt img 22 1)
    lifts := if leAt img 24 4 = 0 then [] else (Config.imageLifts img).map fun l => ⟨l.1, l.2.1, l.2.2.1, l.2.2.2⟩
    resv := if leAt img 28 4 = 0 then (0, 0) else Config.imageReservation img f.val
    hbmShare := Config.imageHbmShare img f.val, entries := Config.imageEntries img, used := Config.imageUsesFace img f.val
    digest := BitVec.ofNat 64 digest, spalls := ((Config.imageSpalls img f.val).take 255).map spallOfBytes
    expects := Config.imageExpects img f.val, groups := Config.imageGroups img f.val, uses := Config.imageRanges img f.val }

/-- The payload of a failed program check (R327): the Face, the instruction's index and the rule. -/
def progRefuse (f : FaceId) (index rule : Nat) : Refuse :=
  (.badParam, leBytes 4 0xFFFFFFFF ++ [BitVec.ofNat 8 f.val] ++ zeros 3 ++ leBytes 4 index ++ leBytes 4 rule)

/-- The rule that a stream descriptor of an image breaks: 3 for another version (R3, R101), then R5 and R99 to R101. -/
def streamFault (b : List Byte) : Option Nat :=
  let d := streamOfBytes b
  firstOf [checks [(d.ver == 2, 3)], descRule d]

/-- The rule that a spall list descriptor of an image breaks: 3 for another version, then R5 and R117. -/
def spallFault (b : List Byte) : Option Nat :=
  let l := spallOfBytes b
  firstOf [checks [(l.ver == 2, 3)], spallRule l]

/-- The first descriptor of an image that breaks a rule on a Face (R99, R117). -/
def descFault (img : List Byte) (f : FaceId) : Option (Nat × Nat) :=
  ((Config.imageStreams img f.val).findSome? fun x => (streamFault x.2).map fun r => (x.1, r)).orElse fun _ =>
    (Config.imageSpalls img f.val).findSome? fun x => (spallFault x).map fun r => (0, r)

/-- The first rule that an image breaks on a Face, with the index of the instruction that breaks it. -/
def State.progRule (s : State) (img : List Byte) (f : FaceId) : Option (Nat × Nat) :=
  let p := progOf img f 0
  let first := checks [
    (zeroAt img 5 1 && zeroAt img 23 1 && zeroAt img 32 32 && bits (leAt img 1 1) 7 6 == 0, 5),
    (p.clockPlan == s.cfg.clockCur, 22), (p.powerCap == s.cfg.powerCur, 327), (p.hbmMode == s.mem.mode, 257),
    (p.tickPeriod.toNat == s.cfg.tpCur.toNat, 22), (p.width.toNat == (s.face f).width, 94), (p.hbmLive == s.mem.hbmLive, 257),
    (decide (p.loadOff % 4096 = 0 ∧ p.loadOff + img.length ≤ spSize), 327),
    (p.shape == (s.pit.sx.toNat, s.pit.sy.toNat, s.pit.sz.toNat), 327)]
  match first with
  | some r => some (0, r)
  | none =>
    match descFault img f with
    | some r => some r
    | none =>
    if Config.imageBrokenRule img f.val ≠ 0 then some (Config.imageBrokenIndex img f.val, Config.imageBrokenRule img f.val)
    else if 3200 < p.hbmShare then some (0, 245)
    else none

/-- PROG_LOAD's and PROG_VERIFY's verdict on an image for a set of Faces. An instruction's artefact of another version is refused
with BAD_VERSION (R3, R4, R322). -/
def State.progCheck (s : State) (img : List Byte) (fs : List FaceId) : Option Refuse :=
  let each := fs.findSome? fun f =>
    (s.progRule img f).map fun r => if r.2 = 3 ∨ r.2 = 4 then badArtefact else progRefuse f r.1 r.2
  let share := fun f => if fs.contains f then some (Config.imageHbmShare img f.val) else none
  let wide := fs.find? fun f => roundBytes s.cfg.clockCur < s.dieShare (f.val / 12) share
  match each with
  | some r => some r
  | none => wide.map fun f => progRefuse f 0 245

/-- The checks of PROG_LOAD and PROG_VERIFY, then `k` with the image. -/
def withProgram (s : State) (pk : CmdPacket) (k : State → List Byte → Answer) : Answer :=
  let a := cmdArg pk 0 8
  let n := cmdArg pk 8 4
  let fs := targetFaces pk.target
  answerIf (refusal [
      (decide (64 ≤ n), badArg 8), (cmdZero pk 12 4, badArg 12), (cmdZero pk 24 8, badArg 24), (s.mem.rangeOk a n, badArg 0)])
    (withArtefact s a n fun s img =>
      answerIn s (firstRefusal [
          refusal [((crc64 img).toNat == cmdArg pk 16 8, (.badCrc, [])), (leAt img 0 1 == 0x20, badArtefact)],
          s.progCheck img fs,
          refusal [
            (s.tk.run == .stopped, (.configBusy, [])),
            (!s.training && fs.all fun f => (s.face f).state.inService, (.notReady, []))]])
        (k s img))

/-- An image in the scratchpad and the registers of each target Face. -/
def State.loadProgram (s : State) (img : List Byte) (digest : Nat) (fs : List FaceId) : State :=
  fs.foldl (fun s f =>
    let p := progOf img f digest
    { s with mem := s.mem.writeBytes (spAddr f p.loadOff) img [] }.updFace f fun x => { x with prog := some p }) s

/-- PROG_LOAD (R327). -/
def acceptProgLoad : Accept := fun s pk _ =>
  withProgram s pk fun s img => .done (s.loadProgram img (cmdArg pk 16 8) (targetFaces pk.target)) .ok []

/-- PROG_VERIFY (R327). -/
def acceptProgVerify : Accept := fun s pk _ => withProgram s pk fun s _ => .done s .ok []

end Sys2Proof.Machine
end

