-- ==== Sys2Proof/Machine/Tables.lean ====
section
/-! DEFINITION. User function tables: the image's checks (R137 to R140), TABLE_LOAD, TABLE_SWAP, TABLE_QUERY (R142, R143, R146) and
step 5 of the tick boundary (R144, R148). -/

namespace Sys2Proof.Machine

/-! ### The image (R137 to R140) -/

def tableOf (img : List Byte) : Table :=
  { header := img.take 64
    entries := (List.range ((img.length - 64) / 16)).map fun j =>
      let c := fun k => BitVec.ofNat 32 (leAt img (64 + 16 * j + 4 * k) 4)
      (c 0, c 1, c 2) }

/-- Step 3 of R139: the first offset in the image whose field fails, in the order listed. -/
def tableFault (img : List Byte) (t : Table) : Option Nat :=
  let js := List.range t.entries.length
  let one := fun (bad : Bool) (o : Nat) => if bad then some o else none
  ([one (bits (leAt img 2 1) 7 2 ≠ 0) 2, one (bits (leAt img 3 1) 7 2 ≠ 0) 3, one (bits (leAt img 4 1) 7 4 ≠ 0) 4,
    one (!zeroAt img 5 3) 5, one (!zeroAt img 24 36) 24,
    (js.find? fun j => !zeroAt img (64 + 16 * j + 12) 4).map fun j => 64 + 16 * j + 12,
    one (t.segbits < 6 || 11 < t.segbits) 1, one (t.mono == 3) 2, one (t.sym == 3) 3, one (t.outfmt == 0) 4,
    one (t.count ≠ 2 ^ (if t.sym = 0 then t.segbits else t.segbits - 1) || img.length ≠ 64 + 16 * t.count) 12,
    js.findSome? fun j => ([0, 1, 2].find? fun k => leAt img (64 + 16 * j + 4 * k) 4 == narBits 32).map fun k => 64 + 16 * j + 4 * k,
    one (narBits 32 ≤ leAt img 8 4) 8] : List (Option Nat)).findSome? id

/-- The table's value at x in posits of width n, by its own evaluation rule (R140). -/
def Table.value (t : Table) (n : Nat) (x : Rat) : Rat :=
  match (flushed (t.raw t.evalCz1 x).2 t.tau none).v with
  | .fin q => (positDecode n (positRound n q)).toRat
  | _ => 0

/-- Segments in value order (R140). -/
def Table.order (t : Table) : List Nat :=
  let half := 2 ^ (t.segbits - 1)
  if t.sym = 0 then rangeFrom half half ++ List.range half else List.range half

/-- Largest argument of segment j. -/
def Table.last (t : Table) (j : Nat) : Rat :=
  (positDecode 32 (((j + 1) * 2 ^ (32 - t.segbits) - 1) % 2 ^ 32)).toRat

def monoPayload (j code check : Nat) : List Byte := leBytes 2 j ++ [BitVec.ofNat 8 code, BitVec.ofNat 8 check] ++ zeros 4

/-- The interior check of segment j, then its seam checks with the next segment (R140). -/
def Table.segFault (t : Table) (fmts : List Nat) (j : Nat) (next : Option Nat) : Option (List Byte) :=
  let sg : Rat := if t.mono = 1 then 1 else -1
  let (_, b1, b2) := t.entries.getD j (0, 0, 0)
  let c1 := (positDecode 32 b1.toNat).toRat
  let c2 := (positDecode 32 b2.toNat).toRat
  let w := t.last j - tableAnchor t.segbits j
  if sg * c1 < 0 ∨ sg * (c1 + 2 * c2 * w) < 0 then some (monoPayload j 0 1)
  else
    match next with
    | none => none
    | some j2 =>
      (fmts.find? fun n => sg * (t.value n (tableAnchor t.segbits j2) - t.value n (t.last j)) < 0).map fun n =>
        monoPayload j2 (positCode n) 0

/-- R140: the payload of the first check that fails. For SYM 2 with MONO not 0 the rule names no segment and no format: bytes 0 to 2 are
0 (log entry 148, DESIGN CHOICE). -/
def Table.monoFault (t : Table) : Option (List Byte) :=
  let fmts := [8, 16, 32].filter t.serves
  let order := t.order
  let sg : Rat := if t.mono = 1 then 1 else -1
  if t.mono = 0 then none
  else if t.sym = 2 then some (monoPayload 0 0 3)
  else
    match (order.zip ((order.drop 1).map some ++ [none])).findSome? fun (j, next) => t.segFault fmts j next with
    | some p => some p
    | none => if t.sym = 1 then (fmts.find? fun n => sg * t.value n 0 < 0).map fun n => monoPayload 0 (positCode n) 2 else none

/-! ### Banks -/

/-- Entries of a bank in slots other than one. -/
def Bank.used (b : Bank) (slot : Nat) : Nat :=
  (((List.range 8).filter fun i => i != slot).map fun i =>
    match b.slots.getD i none with
    | some t => t.entries.length
    | none => 0).foldl (· + ·) 0

/-- A table written into a slot; a CLEAR load first empties the bank and sets its mark (R142). -/
def Bank.load (b : Bank) (slot : Nat) (t : Table) (clear cz1 : Bool) : Bank :=
  let b := if clear then { Bank.empty with cz1 := cz1 } else b
  { b with
    slots := b.slots.set slot (some t), ue := b.ue.filter fun e => e.1 ≠ slot, ueSeen := b.ueSeen.filter fun e => e.1 ≠ slot }

def State.banks (s : State) (f : FaceId) : FnBanks := (s.face f).units.banks

def State.updBanks (s : State) (f : FaceId) (g : FnBanks → FnBanks) : State := s.updUnits f fun u => { u with banks := g u.banks }

/-- TABLE_LOAD (R139, R143). -/
def acceptTableLoad : Accept := fun s pk tk =>
  let a := cmdArg pk 0 8
  let n := cmdArg pk 8 4
  let slot := cmdArg pk 12 1
  let fl := cmdArg pk 13 1
  let bank := bit fl 0
  let clear := bit fl 1
  let cz1 := bit fl 2
  let fs := targetFaces pk.target
  answerIf (refusal [
      (decide (64 ≤ n ∧ n ≤ 32832), badArg 8), (decide (slot < 8), badArg 12), (decide (fl < 8), badArg 13), (cmdZero pk 14 18, badArg 14),
      (s.mem.cmdRangeOk a n, badArg 0)])
    (withArtefact s a n fun s img =>
      let t := tableOf img
      answerIn s (firstRefusal [
          refusal [
            (leAt img 0 1 == 0x20, badArtefact),
            (leAt img 60 4 == (crc32c (img.take 60 ++ zeros 4 ++ img.drop 64)).toNat, (.badCrc, []))],
          (tableFault img t).map fun o => badParam2 32 o,
          refusal [
            (fs.all fun f => t.evalCz1 == (if clear then cz1 else ((s.banks f).bankOf bank).cz1), badParam2 32 4),
            (fs.all fun f => decide ((if clear then 0 else ((s.banks f).bankOf bank).used slot) + t.entries.length ≤ 4096), badParam2 32 12),
            (fs.all fun f => (s.banks f).active != bank, (.tableBankActive, [])),
            (fs.all fun f => (s.banks f).swapAt.isNone, (.tableBankActive, [])),
            (fs.all fun f => !(s.banks f).loadPending, (.configBusy, [])),
            (fs.all fun f => (s.face f).state.inService, (.notReady, []))],
          t.monoFault.map fun p => (Status.tableNonmonotone, p)])
        (let s1 := fs.foldl (fun s f => s.updBanks f fun b => { b with loadPending := true }) s
         let job : LoadJob := ⟨tk, fs, ⟨slot % 8, Nat.mod_lt _ (by omega)⟩, t, clear, cz1⟩
         .later { s1 with loads := s1.loads ++ [job] }))

/-- The end of a load on one Face: the table, or SHADOW_VALID 0. The bank of a Face that did not finish keeps its contents (log
entry 46). -/
def LoadJob.onFace (j : LoadJob) (ok : Bool) (b : FnBanks) : FnBanks :=
  if ok then
    { b.setBank (!b.active) (b.shadow.load j.slot.val j.table j.clear j.cz1) with loadPending := false, shadowValid := true }
  else { b with loadPending := false, shadowValid := false }

/-- TABLE_LOAD_DONE: the writes of the load that `key` names end; `failed` marks the Faces that did not finish (R142). -/
def State.tableLoadDone (s : State) (key : CmdKey) (failed : BitVec 96) : State :=
  match s.loads.find? fun j => j.tkt.key == key with
  | none => s
  | some j =>
    let bad := j.faces.filter fun f => failed.getLsbD f.val || !(s.face f).state.inService
    let s1 := j.faces.foldl (fun s f => s.updBanks f (j.onFace (!bad.contains f))) s
    let s1 := { s1 with loads := s1.loads.filter fun x => x.tkt.key ≠ key }
    match bad with
    | [] => s1.finish j.tkt .ok []
    | f :: _ => s1.finish j.tkt .notReady (leBytes 2 bad.length ++ [BitVec.ofNat 8 f.val] ++ zeros 5)

def execTableLoadDone (key : CmdKey) (failed : BitVec 96) (s : State) : Result := .next (s.tableLoadDone key failed)

/-- The compat marks that READY Faces would have active after a swap on some Faces agree (R143). -/
def State.swapAgrees (s : State) (fs : List FaceId) : Bool :=
  let marks := (allFaces.filter fun f => (s.face f).state.inService).map fun f =>
    (if fs.contains f then (s.banks f).shadow else (s.banks f).live).cz1
  marks.all (· == true) || marks.all (· == false)

/-- TABLE_SWAP (R143). -/
def acceptTableSwap : Accept := fun s pk tk =>
  let fs := targetFaces pk.target
  let at_ := actTick s pk
  answerIf (refusal [
      (fs.all fun f => (s.banks f).shadowValid, badParam 8), (s.swapAgrees fs, badParam 8),
      (fs.all fun f => !(s.banks f).loadPending, (.configBusy, [])), (fs.all fun f => (s.banks f).swapAt.isNone, (.configBusy, [])),
      (fs.all fun f => (s.face f).state.inService, (.notReady, []))])
    (let s1 := fs.foldl (fun s f => s.updBanks f fun b => { b with swapAt := some at_ }) s
     .later { s1 with sched := { s1.sched with swaps := s1.sched.swaps ++ [(tk, at_, fs)] } })

/-- AID.COMPAT after swaps (R148). -/
def State.updCompat (s : State) : State :=
  match allFaces.find? fun f => (s.face f).state.inService with
  | some f => { s with cfg := { s.cfg with compat := (s.banks f).live.cz1 } }
  | none => s

/-- One swap takes effect and replies. -/
def State.doSwap (s : State) (w : Ticket × Nat × List FaceId) : State :=
  (w.2.2.foldl (fun s f => s.updBanks f fun b => { b with active := !b.active, swapAt := none }) s).finish w.1 .ok []

/-- Step 5 of R214. AID.COMPAT follows the active banks at the boundary, those too that PIT_DESTROY has reset since (R148). -/
def State.takeSwaps (s : State) : State :=
  let due := s.sched.swaps.filter fun w => w.2.1 == s.tk.tickCount.toNat
  let s1 := if due.isEmpty then s
    else { s with sched := { s.sched with swaps := s.sched.swaps.filter fun w => w.2.1 != s.tk.tickCount.toNat } }
  (due.foldl State.doSwap s1).updCompat

/-- TABLE_QUERY (R146, R324). -/
def acceptTableQuery : Accept := fun s pk _ =>
  match targetFaces pk.target with
  | [] => .refuse (badParam 8)
  | f :: _ =>
    let b := s.banks f
    let headers := fun (k : Bank) => k.slots.flatMap fun t => match t with | some t => padTo 64 t.header | none => zeros 64
    .done s .ok (leBytes 8 b.reg ++ headers b.live ++ headers b.shadow)

/-- PIT_DESTROY: pending loads and swaps end with NOT_READY, and every bank is as at reset (R144). AID.COMPAT changes at the next boundary
(R148). -/
def State.destroyTables (s : State) : State :=
  let ts := s.loads.map (·.tkt) ++ s.sched.swaps.map (·.1)
  let s1 := { s with
    loads := [], sched := { s.sched with swaps := [] }
    faces := s.faces.map fun x => { x with units := { x.units with banks := FnBanks.reset } } }
  ts.foldl (fun s t => s.finish t .notReady []) s1

end Sys2Proof.Machine
end

