-- ==== Sys2Proof/Machine/Pit.lean ====
section
/-! DEFINITION. Pits: PIT_CREATE and PIT_DESTROY (R210, R260, R280 to R282), twins (R234 to R237), halt notices, extension
announcements and power events (R220, R223, R278, R349), and the Faces' programs (R222 to R225, R253, R217). -/

namespace Sys2Proof.Machine

/-! ### Frames -/

/-- The frame number: the fabric's once the timebase is locked, and the module's own count before (log entry 57). -/
def State.frameNow (s : State) : Nat := if s.fab.locked then s.tk.frameCount.toNat else s.tk.localFrame

/-! ### PIT_CREATE (R280, R282) -/

/-- The counters that PIT_CREATE clears (R47, R121, R155, R311). -/
def State.clearPitCounters (s : State) : State :=
  { s with
    cnt := Counters.zero
    faces := s.faces.map fun x => { x with tot := Totals.zero }
    coll := { s.coll with esc := 0, fallback := 0, quar := 0, totEsc := 0, totFb := 0, totQuar := 0, origin := none } }

/-- The Pit that the parameters give. -/
def pitOf (s : State) (pk : CmdPacket) : Pit :=
  { s.pit with
    id := cmdPit pk, corner := BitVec.ofNat 15 (cmdArg pk 0 2), sx := BitVec.ofNat 5 (cmdArg pk 2 1)
    sy := BitVec.ofNat 5 (cmdArg pk 3 1), sz := BitVec.ofNat 5 (cmdArg pk 4 1), rank := 0 }

/-- E and PACER_ID of a module that is in no run: nothing is in force (R226). -/
def TickRegs.unpaced (t : TickRegs) : TickRegs :=
  { t with ext := 0, pastExt := [], extKnown := 0, pacerTick := 0, pacerFaddr := 0, pacerFace := 0, pacerExt := 0 }

def State.createPit (s : State) (p : Pit) (origin : BitVec 64) (start : Nat) : State :=
  let s1 : State := { s with pit := p }
  let s2 : State := { s1 with pit := { p with rank := BitVec.ofNat 15 (s1.rankOf s.fab.faddr) } }
  let s3 := s2.clearPitCounters
  let s4 : State := { s3 with
    strm := { s3.strm with incarn := 1 }
    tk := { s3.tk.unpaced with notice := s2.newNotice, startTick := start, originFrame := origin, originDue := true } }
  s.helloChange s4

def acceptPitCreate : Accept := fun s pk _ =>
  let p := pitOf s pk
  let probe : State := { s with pit := p }
  let corner := p.corner
  answerIf (refusal [
      (cmdPit pk != 0, badParam 6), (decide (cmdArg pk 0 2 < 2 ^ 15), badArg 0), (cmdZero pk 5 3, badArg 5), (cmdZero pk 24 8, badArg 24),
      (decide (coord corner 0 < s.dim 0 ∧ coord corner 1 < s.dim 1 ∧ coord corner 2 < s.dim 2), badArg 0),
      (decide (cmdArg pk 2 1 < s.dim 0), badArg 2), (decide (cmdArg pk 3 1 < s.dim 1), badArg 3), (decide (cmdArg pk 4 1 < s.dim 2), badArg 4),
      (probe.inBlock s.fab.faddr, badArg 0), (s.pit.scrub.isNone, (.notReady, [])),
      (!(s.pit.left.any fun l => l.1 == p.id && decide (s.tk.localFrame < l.2 + 2048)), (.pitDenied, []))])
    (.done (s.createPit p (BitVec.ofNat 64 (cmdArg pk 8 8)) (cmdArg pk 16 8)) .ok [])

/-! ### PIT_DESTROY (R260, R282) -/

/-- The flits of a Pit's packets leave a port's queues: the header stands in a packet's first flit (R274). -/
def Port.dropPit (x : Port) (pit : PitId) : Port :=
  let drop := dropFlits (fun f => leAt f.payload 2 2 == pit.toNat) false
  { x with q0 := drop x.q0, q1 := drop x.q1, q2 := drop x.q2, q3 := drop x.q3, own0 := drop x.own0 }

/-- Queued packets of a Pit leave the module (R282). -/
def Fabric.dropPit (x : Fabric) (pit : PitId) : Fabric :=
  let keep := fun (l : List Packet) => l.filter fun p => p.pit ≠ pit
  { x with
    own := keep x.own, ingress := keep x.ingress, delivered := keep x.delivered, ports := x.ports.map fun p => p.dropPit pit }

/-- Zeros over the scratchpads, the Stockpiles and all mapped HBM (R260). -/
def Mem.scrubAll (m : Mem) : Mem :=
  let keep := fun a => !(m.region a).isMem
  { m with
    cells := m.cells.filter fun p => keep p.1
    poison := m.poison.filter keep, latentUe := m.latentUe.filter keep, latentCe := m.latentCe.filter keep
    groups := [], landing := [] }

/-- Carry stores, quires and finished-tile queues emptied; programs and digests go with their scratchpads. -/
def Face.scrub (x : Face) : Face :=
  { x with
    prog := none, running := false, slip := 0, stall := none, held := [], notableSeen := false, tickBanks := [], digests := []
    units := { x.units with
      loaded := false, setA := QuireSet.empty, setB := QuireSet.empty, pipe := [], queue := [], carry := [], carryUe := [], carrySeen := [] } }

/-- The Pit halts with cause 7, and what waits for it ends (R219, R221, R200, R309, R144, R326). -/
def State.endPit (s : State) : State :=
  let tick := s.tk.tickCount.toNat
  let s1 : State := if s.tk.run = .stopped then s else
    { s with tk := { s.tk with haltTick := s.tk.tickCount, cause := 7, remote := false } }
  let s2 := s1.cancelLaunch 7 tick
  let s3 := ({ s2 with tk := { s2.tk with run := .stopped, haltTaken := false } }).replyHalts 7 tick
  let s4 := ((s3.destroyBuckets tick).destroyStreams).destroyTables
  let s5 := s4.sched.commits.foldl (fun s c => s.finish c.tkt .notReady []) s4
  { s5 with sched := { s5.sched with halts := [], commits := [], staging := [], exts := [] } }

/-- PIT_INFO as at reset, with the Pit recorded as left. -/
def State.leavePit (s : State) (t : Ticket) : State :=
  let left := (s.pit.id, s.tk.localFrame) :: s.pit.left.filter fun l => l.1 != s.pit.id
  let s1 : State := { s with
    fab := s.fab.dropPit s.pit.id, mem := s.mem.scrubAll, faces := s.faces.map Face.scrub
    twin := { s.twin with paired := false, mine := [], theirs := [], parts := [] }
    pit := { Pit.reset with left := left, scrub := some t } }
  s.helloChange { s1 with tk := { s1.tk.unpaced with notice := s1.newNotice, originDue := false, odcDue := false } }

def acceptPitDestroy : Accept := fun s _ t =>
  let unpair := s.sched.unpair
  let s1 := s.endPit
  let s2 := unpair.foldl (fun s t => s.finish t .ok []) { s1 with sched := { s1.sched with unpair := [] } }
  .later (s2.leavePit t)

/-- One granule whose scrub write failed to verify (R260, R334). -/
def State.badGranule (s : State) (a : DevAddr) : State :=
  let g := gran a.toNat
  let r := s.mem.region g
  let u : EUnit := match r with
    | .scratchpad f _ => .face f
    | .stockpile d _ => .die d
    | .hbm m _ => .stack m
    | _ => .module
  if r.isMem then
    { s with mem := { s.mem.countStacks [g] with poison := nins g s.mem.poison } }.raise 0x0302 u g
      [BitVec.ofNat 8 r.errMem]
  else s

/-- PIT_SCRUB_DONE: PIT_DESTROY replies. -/
def State.scrubDone (s : State) (bad : List DevAddr) : State :=
  match s.pit.scrub with
  | none => s
  | some t => (bad.foldl State.badGranule { s with pit := { s.pit with scrub := none } }).finish t .ok []

def execPitScrubDone (bad : List DevAddr) (s : State) : Result := .next (s.scrubDone bad)

/-! ### TWIN_PAIR and TWIN_UNPAIR (R234) -/

/-- A Face's program digest; 0 without a program. -/
def Face.progDigest (x : Face) : BitVec 64 := match x.prog with | some p => p.digest | none => 0

/-- The values of this module and of its partner that must agree. -/
def State.twinAgrees (s : State) (p : Peer) : Bool :=
  p.aid.toNat == s.aid && !p.fast && !s.cfg.fast && p.tp == s.cfg.tpCur && p.notice == s.tk.notice
    && p.digests == s.faces.map Face.progDigest && p.states == s.faces.map (fun x => x.state.code)
    && p.shape == (s.pit.sx.toNat, s.pit.sy.toNat, s.pit.sz.toNat)

def State.pairWith (s : State) (p : Peer) : State :=
  let s1 : State := { s with twin := { s.twin with paired := true, partner := p.faddr, partnerPit := p.pit, mine := [], theirs := [], parts := [] } }
  let joined := noticeOf p.hops s.cfg.tpCur.toNat
  if s1.twinElsewhere then
    { s1 with tk := { s1.tk with notice := if s.tk.notice.toNat < joined.toNat then joined else s.tk.notice } }
  else s1

/-- The module's Pit is fast, or becomes fast by a commit that waits (R26). -/
def State.fastSoon (s : State) : Bool := s.cfg.fast || s.sched.commits.any fun c => bit (s.csrStaged c.entries 0x0080) 0

/-- TWIN_PAIR. What the exchange with the partner has told lies in `heard`; a module from which nothing was heard is not ready (log
entry 58). -/
def acceptTwinPair : Accept := fun s pk _ =>
  let a := cmdArg pk 0 2
  let pit := cmdArg pk 2 2
  let peer := s.twin.heard.filter fun p => p.faddr.toNat == a && p.pit.toNat == pit
  answerIf (refusal [
      (decide (a < 2 ^ 15), badArg 0), (decide (pit < 2 ^ 12), badArg 2), (cmdZero pk 4 28, badArg 4), (!s.fastSoon, badArg 0),
      ((match peer with | some p => s.twinAgrees p | none => true), badArg 0), (peer.isSome, (.notReady, []))])
    (.done (match peer with | some p => s.pairWith p | none => s) .ok [])

/-- TWIN_UNPAIR: the pairing ends, and the command replies, at the next boundary. -/
def acceptTwinUnpair : Accept := fun s _ t =>
  .later { s with sched := { s.sched with unpair := s.sched.unpair ++ [t] } }

/-- The pairings that end at a boundary. -/
def State.takeUnpair (s : State) : State :=
  if s.sched.unpair.isEmpty then s
  else
    s.sched.unpair.foldl (fun s t => s.finish t .ok [])
      { s with sched := { s.sched with unpair := [] }, twin := { s.twin with paired := false, mine := [], theirs := [], parts := [] } }

/-! ### Twin digests (R235, R236) -/

def faceDigest (d : TickDig) : BitVec 64 := (d.regions.map fun r => r.2.sum).foldl (· + ·) 0

/-- The 96 Face digests of a tick, 0 for a Face that is not READY. -/
def State.faceDigests (s : State) (t : Nat) : List (BitVec 64) :=
  s.faces.map fun x => if x.state.inService then faceDigest (digsAt x.digests t) else 0

def State.moduleDigest (s : State) (t : Nat) : BitVec 64 := crc64 ((s.faceDigests t).flatMap fun d => leBytes 8 d.toNat)

def regionDigests (d : TickDig) : List (BitVec 64) := (List.range 16).map fun g => (sget RegionDig.none d.regions g).sum

/-- A digest message to the partner (R236). -/
def State.sendTwin (s : State) (tick : Nat) (b : TwinBody) : State :=
  s.post (s.class0 0x12 (some s.twin.partner) (some (.twin ⟨BitVec.ofNat 64 tick, b⟩)))

/-- A packet of the module's own Pit, or under a pairing of the partner's (R281). -/
def State.ownPit (s : State) (pit : PitId) : Bool := pit != 0 && (pit == s.pit.id || (s.twin.paired && pit == s.twin.partnerPit))

/-- The first index at which two lists differ. -/
def firstDiff (a b : List (BitVec 64)) : Option Nat :=
  (((List.range a.length).zip (a.zip b)).find? fun (_, x, y) => x != y).map (·.1)

/-- The Face digests of the tick that differed: the first differing Face, whose region digests go to the partner. -/
def State.twinFaces (s : State) (t : Nat) (theirs : List (BitVec 64)) : State :=
  match firstDiff (s.faceDigests t) theirs with
  | none => s
  | some i =>
    if h : i < 96 then
      { s with twin := { s.twin with face := BitVec.ofNat 7 i } }.sendTwin t (.regions ⟨i, h⟩ (regionDigests (digsAt (s.face ⟨i, h⟩).digests t)))
    else s

/-- The region digests of a Face: the first differing region's written offsets (R236). -/
def State.twinRegions (s : State) (t : Nat) (f : FaceId) (theirs : List (BitVec 64)) : State :=
  let d := digsAt (s.face f).digests t
  match firstDiff (regionDigests d) theirs with
  | none => s
  | some g =>
    let r := sget RegionDig.none d.regions g
    { s with twin := { s.twin with face := BitVec.ofNat 7 f.val, addrLo := BitVec.ofNat 27 r.lo, addrHi := BitVec.ofNat 27 r.hi } }

/-- A part of the partner's Face digests; the last of the four compares them (log entry 84). -/
def State.twinPart (s : State) (t part : Nat) (ds : List (BitVec 64)) : State :=
  let parts := (part, ds) :: s.twin.parts.filter fun x => x.1 ≠ part
  let s1 : State := { s with twin := { s.twin with parts := parts } }
  if (List.range 4).all fun i => parts.any fun x => x.1 == i then
    s1.twinFaces t ((List.range 4).flatMap fun i => ((parts.find? fun x => x.1 == i).map (·.2)).getD [])
  else s1

/-- A digest message of the partner (R236). Face and region digests count for the mismatch that stands. -/
def State.twinMsg (s : State) (n : TwinMsg) : State :=
  let t := n.tick.toNat
  let after := (s.twin.kind == 1 || s.twin.kind == 2) && s.twin.firstTick == n.tick
  match n.body with
  | .module d => { s with twin := { s.twin with theirs := (t, d) :: (s.twin.theirs.filter fun x => x.1 ≠ t).take 31 } }
  | .faces part ds => if after then s.twinPart t part ds else s
  | .regions f ds => if after then s.twinRegions t f ds else s

/-- TWIN_DIGEST: a delivered packet of KIND 0x12. -/
def State.twinDigest (s : State) (k : Packet) : State :=
  s.onArrival k 0x12 fun s =>
    match k.load with
    | some (.twin n) => if s.twin.paired && s.ownPit k.pit && k.src == s.twin.partner then s.twinMsg n else s
    | _ => s

def execTwinDigest (pkt : Packet) (s : State) : Result := .next (s.twinDigest pkt)

/-- At the boundary into X, the module digest of X - 1 goes to the partner, where the Pit ran in that tick. -/
def State.sendDigest (s : State) (ran : Bool) : State :=
  let t := s.tk.tickCount.toNat - 1
  if s.twin.paired && ran then
    let d := s.moduleDigest t
    { s with twin := { s.twin with mine := (t, d) :: (s.twin.mine.filter fun (x : Nat × BitVec 64) => x.1 ≠ t).take 31 } }.sendTwin t (.module d)
  else s

/-- A mismatch can be recorded: the first one of a run stands until the next LAUNCH (log entry 59). -/
def State.twinFree (s : State) : Bool := s.twin.kind == 0

/-- Step 8: the digests of tick X - LAG are compared; KIND 1 or 2 halts both twins by notice with cause 4. -/
def State.twinCompare (s : State) : State :=
  let x := s.tk.tickCount.toNat
  let t := x - s.twin.lag.toNat
  if !s.twin.paired || !s.twinFree || decide (x < s.twin.lag.toNat) then s
  else
    match s.twin.mine.find? fun d => d.1 == t with
    | none => s
    | some m =>
      let record := fun (k : BitVec 2) =>
        ({ s with twin := { s.twin with kind := k, firstTick := BitVec.ofNat 64 t } } : State).noticeHalt 4 false
      match s.twin.theirs.find? fun d => d.1 == t with
      | none => record 2
      | some d => if d.2 = m.2 then s else record 1

/-- After a halt on KIND 1 or 2, the 96 Face digests of the tick that differed go to the partner, in four packets of 24. -/
def State.sendFaces (s : State) : State :=
  if s.twin.paired && (s.twin.kind == 1 || s.twin.kind == 2) then
    let ds := s.faceDigests s.twin.firstTick.toNat
    (List.range 4).foldl (fun s i => s.sendTwin s.twin.firstTick.toNat (.faces i ((ds.drop (24 * i)).take 24))) s
  else s

/-- A new run shows no mismatch (log entry 128). -/
def Twin.newRun (w : Twin) : Twin := { w with firstTick := 0, kind := 0, face := 0, addrLo := 0, addrHi := 0, parts := [] }

/-! ### Halt notices, extensions, power events -/

/-- A notice from the other Pit of a pairing goes on into the own Pit, and one of the own Pit to the partner (R234). -/
def State.relayNotice (s : State) (n : HaltNotice) : State :=
  if n.relay then s.toPit 0x10 (some (.halt { n with relay := false })) else s.toTwin 0x10 (.halt { n with relay := true })

/-- A late class-0 message: counted, with its record, and the local halt that the record brings (R278). -/
def State.lateClass0 (s : State) (kind : Byte) (target : BitVec 64) : State :=
  { s with fab := { s.fab with c0Late := satInc 32 s.fab.c0Late } }.raise 0x0404 .module 0 (kind :: zeros 7 ++ leBytes 8 target.toNat)

/-- A halt notice of another member or of the partner's Pit; a late one halts at the next boundary by its record (R278). KIND 3 records
that the partner halted for a cause of its own (R236; log entry 59). -/
def State.haltNoticeIn (s : State) (n : HaltNotice) : State :=
  if n.src == s.fab.faddr then s
  else
    let s := s.relayNotice n
    let s := if s.twin.paired && s.twinFree && n.cause != 4 && (n.relay || n.src == s.twin.partner) && s.canHalt then
        { s with twin := { s.twin with kind := 3 } }
      else s
    if n.target.toNat ≤ s.tk.tickCount.toNat then
      s.lateClass0 0x10 n.target
    else s.schedHalt n.target.toNat n.cause true

/-- HALT_NOTICE: a delivered packet of KIND 0x10, for the Pits of R281. -/
def State.haltPacket (s : State) (k : Packet) : State :=
  s.onArrival k 0x10 fun s =>
    match k.load with
    | some (.halt n) => if s.ownPit k.pit then s.haltNoticeIn n else s
    | _ => s

def execHaltNotice (pkt : Packet) (s : State) : Result := .next (s.haltPacket pkt)

def State.addExt (s : State) (target ext : Nat) (faddr : FAddr) (face : BitVec 7) (rank : Nat) : State :=
  let e := Nat.min ext 1023
  { s with
    sched := { s.sched with exts := s.sched.exts ++ [⟨target, e, faddr, face, rank⟩] }
    tk := { s.tk with extKnown := Nat.max s.tk.extKnown e } }

def State.relayExt (s : State) (n : ExtAnn) : State :=
  if n.relay then s.toPit 0x11 (some (.ext { n with relay := false })) else s.toTwin 0x11 (.ext { n with relay := true })

def State.extensionIn (s : State) (n : ExtAnn) : State :=
  if n.src == s.fab.faddr then s
  else
    let s := s.relayExt n
    if n.target.toNat ≤ s.tk.tickCount.toNat then
      (s.addExt (s.tk.tickCount.toNat + 1) n.ext n.src n.face n.rank).lateClass0 0x11 n.target
    else s.addExt n.target.toNat n.ext n.src n.face n.rank

/-- EXTENSION_ANNOUNCEMENT: a delivered packet of KIND 0x11, for the Pits of R281. -/
def State.extPacket (s : State) (k : Packet) : State :=
  s.onArrival k 0x11 fun s =>
    match k.load with
    | some (.ext n) => if s.ownPit k.pit then s.extensionIn n else s
    | _ => s

def execExtensionAnnouncement (pkt : Packet) (s : State) : Result := .next (s.extPacket pkt)

/-- Step 6: E of the new tick is the largest value announced for it, and PACER_ID names the announcement, of equal ones that of
the lowest rank (R223, R226). -/
def State.fixExt (s : State) : State :=
  let x := s.tk.tickCount.toNat
  let due := s.sched.exts.filter fun e => e.target == x
  let best := due.foldl (fun (b : Option PendExt) e =>
    match b with
    | none => some e
    | some o =>
      if o.ext < e.ext ∨ (o.ext = e.ext ∧ e.rank < o.rank) then some e else b) none
  let s1 : State := { s with
    sched := { s.sched with exts := s.sched.exts.filter fun e => e.target != x }
    tk := { s.tk with pastExt := s.tk.ext :: s.tk.pastExt } }
  match best with
  | some e =>
    if s.tk.ext < e.ext then
      { s1 with tk := { s1.tk with
          ext := e.ext, pacerTick := BitVec.ofNat 32 e.target, pacerFaddr := e.faddr, pacerFace := e.face, pacerExt := BitVec.ofNat 10 e.ext } }
    else s1
  | none => s1

/-- The delivered power event of a source and a Pit. -/
def State.powerEvent (s : State) (src : FAddr) (pit : PitId) : Option Packet :=
  s.fab.delivered.find? fun k => k.kind == 0x13 && k.src == src && k.pit == pit

/-- POWER_EVENT: a delivered packet of KIND 0x13, in every Pit (R281): a record, and a halt notice with cause 6 (R220, R349). -/
def execPowerEvent (src : FAddr) (pit : PitId) (s : State) : Result :=
  .next (match s.powerEvent src pit with
    | none => s
    | some k => s.onArrival k 0x13 fun s =>
      if src = s.fab.faddr then s else (s.raise 0x010B .module 0 (leBytes 2 src.toNat)).noticeHalt 6 true)

/-! ### Programs of the Faces (R222 to R225) -/

/-- Tenths of a cycle in a frame, by clock plan (R213). -/
def frameTenths (plan : BitVec 2) : Nat := if plan = 1 then 6144 else if plan = 2 then 7680 else 9216

/-- The extension of the tick that lies `n` ticks back (R223). -/
def State.extBack (s : State) (n : Nat) : Nat := (s.tk.ext :: s.tk.pastExt).getD n 0

/-- Cycles of the tick that lies `n` ticks back, extension included, rounded down (R22). -/
def State.tickCycles (s : State) (n : Nat) : Nat := (s.cfg.tpCur.toNat + s.extBack n) * frameTenths s.cfg.clockCur / 10

/-- SLACK_MIN after a program that ended at cycle e of U usable ones (R226). -/
def Face.slack (x : Face) (e u : Nat) : Face :=
  if u < e then { x with maxOver := satAdd 24 0 (Nat.max x.maxOver.toNat (e - u)), minSlack := 0 }
  else { x with minSlack := BitVec.ofNat 24 (Nat.min x.minSlack.toNat (Nat.min (u - e) 0xFFFFFF)) }

/-- The module has sent its halt notice for an overrun of this run (R224). -/
def State.overran (s : State) : Bool := s.tk.haltTaken || s.sched.halts.any fun h => h.cause == 2 && !h.remote

/-- What an overrun by o cycles, in a tick of extension e, leads to: an announcement under stretch, a halt notice under halt
for the first overrun (R223, R224). -/
def State.overrun (s : State) (f : FaceId) (e o : Nat) : State :=
  if s.cfg.haltPolicy then (if s.overran then s else s.noticeHalt 2 false)
  else
    let want := e + ceilDiv (10 * o) (frameTenths s.cfg.clockCur)
    if s.tk.extKnown < want ∧ s.tk.extKnown < 1023 then
      let target := s.tk.tickCount.toNat + s.tk.notice.toNat
      let ann : ExtAnn := ⟨s.fab.faddr, BitVec.ofNat 7 f.val, s.pit.rank.toNat, BitVec.ofNat 64 target, Nat.min want 1023, false⟩
      ((s.toPit 0x11 (some (.ext ann))).toTwin 0x11 (.ext { ann with relay := true })).addExt target want s.fab.faddr (BitVec.ofNat 7 f.val) s.pit.rank.toNat
    else s

/-- The tick whose program a Face runs is the last that a halt lets it finish (R221). -/
def State.lastProgram (s : State) (x : Face) : Bool :=
  x.slip == 0 || (s.tk.haltTaken && decide (s.tk.haltTick.toNat ≤ s.tk.tickCount.toNat - x.slip + 1))

/-- FACE_PROGRAM_END: the program that Face f runs ends at a cycle counted from the boundary into its tick; a slipped Face goes on
with its next program, up to that of the tick before a halt's boundary. -/
def State.programEnd (s : State) (f : FaceId) (e : Nat) : State :=
  let x := s.face f
  if !x.running || x.stall.isSome then s
  else
    let u := s.tickCycles x.slip - 256
    let s1 := s.updFace f fun x => x.slack e u
    let s2 := if u < e then s1.overrun f (s.extBack x.slip) (e - u) else s1
    s2.updFace f fun y => if s.lastProgram x then { y with running := false, slip := 0 } else { y with slip := y.slip - 1 }

def execFaceProgramEnd (f : FaceId) (endCycle : Nat) (s : State) : Result := .next (s.programEnd f endCycle)

/-- A Face that has slipped past STALL_LIMIT (R225). -/
def State.pastLimit (s : State) (x : Face) : Bool := x.running && decide (s.cfg.stallLimit.toNat < x.slip)

/-- A stalled Face past STALL_LIMIT after a halt boundary: what it waits for does not come, and it stops (R217, R221; log entry 156). -/
def State.giveUp (s : State) (x : Face) : Face :=
  if s.tk.haltTaken && s.pastLimit x && x.stall.isSome then { x with running := false, slip := 0, stall := none, held := [] } else x

/-- FACE_SLIP_LIMIT: a record, by which the module sends a halt notice with cause 3 (R225, R333). -/
def execFaceSlipLimit (f : FaceId) (s : State) : Result :=
  .next (if s.pastLimit (s.face f) then
    (s.raise 0x0402 (.face f.val) 0 (leBytes 4 ((s.face f).slip - 1))).updFace f s.giveUp
  else s)

/-! ### ODC_PIT_UPDATE (R228) -/

/-- After the halt boundary, ODC.PIT becomes the sum of ODC.MODULE over the members. -/
def execOdcPitUpdate (others : List (BitVec 32)) (s : State) : Result :=
  .next (if s.tk.odcDue then
    { s with tk := { s.tk with
        odcPit := satAdd 32 0 ((others.map BitVec.toNat).foldl (· + ·) s.tk.odcModule.toNat), odcDue := false } }
  else s)

end Sys2Proof.Machine
end

