-- ==== Sys2Proof/Machine/Movers.lean ====
section
/-! DEFINITION. A Face's movers (R15, R18, R239, R242, R245, R248, R253), its sends to the fabric and what they form (R217, R274), atomic
adds (R252), and the landing buffers (R217). -/

namespace Sys2Proof.Machine

/-! ### Ranges that a program names -/

/-- The state slot at `g` is one of a serving program's lifts: it holds a stream whose cell has the digest of one (log entry 157). -/
def State.liftSlot (s : State) (f : FaceId) (g : Nat) : Bool :=
  match (s.face f).prog with
  | some p => s.strm.ents.any fun e => e.spill.isNone && e.addr == g && p.lifts.any fun l => l.digest == crc64 e.cell
  | none => false

/-- The 32 KiB state slots that a range touches; Stockpiles and slots begin at multiples of 32 KiB (R187, R242). -/
def slotsIn (a n : Nat) : List Nat := (rangeFrom (a / 0x8000) ((a + n - 1) / 0x8000 + 1 - a / 0x8000)).map (0x8000 * ·)

/-- R242: no program writes the stream table, and only a serving program writes state slots, those of its lifts. -/
def State.pileOk (s : State) (f : FaceId) (a n : Nat) : Bool :=
  let k := s.strm.slotK.toNat
  !touchesFixed k a n
    || (!touchesFixed 0 a n && (slotsIn a n).all fun g => !touchesFixed k g 0x8000 || s.liftSlot f g)

/-! ### MOVER_TRANSFER -/

/-- Whether an address lies in Face f's scratchpad. -/
def inScratch (f : FaceId) (a : Nat) : Bool := decide (spAddr f 0 ≤ a) && decide (a < spAddr f 0 + spSize)

/-- The transfer with its marks (R248), its digests (R235) and what it disturbs. -/
def State.moveNow (s : State) (f : FaceId) (o : MoveOp) : State :=
  let src := o.src.toNat
  let dst := o.dst.toNat
  let s1 := if inScratch f dst then s else s.foldWords f true (scratchWords f src o.bytes)
  let s2 := s1.copyMem (.face f.val) src dst o.bytes
  let (a, k) := overlap src dst o.bytes
  let s3 := if k = 0 then s2 else s2.freeFill a k
  ((s3.foldRange dst o.bytes).disturb dst o.bytes).spoilBuckets false src o.bytes

/-- A mover reaches every mapped address of memory (R15, R239). -/
def moverRule (s : State) (f : FaceId) (o : MoveOp) : Option Nat :=
  let src := o.src.toNat
  let dst := o.dst.toNat
  checks [
    (s.mem.rangeOk src o.bytes && s.mem.rangeOk dst o.bytes, 239), (s.pileOk f dst o.bytes, 242),
    (!s.earlyGroup f src o.bytes && !s.earlyGroup f dst o.bytes, 253)]

def execMoverTransfer (f : FaceId) (o : MoveOp) (s : State) : Result :=
  issue s f (.moverTransfer f o) (moverRule s f o) fun s => s.moveNow f o

/-! ### FABRIC_SEND (R217, R274) -/

/-- The packets of a landing write: T is the tick of the program that sends it, also when its Face has slipped (R217, R222; log entry
158). -/
def State.sendPackets (s : State) (f : FaceId) (o : SendOp) (gs : List Nat) : List Packet :=
  (bodyCuts o.bytes).map fun (off, n) =>
    s.dataPacket 2 0x01 (s.memberAt o.rank) o.vis o.tag (s.progTick f) (o.dst + BitVec.ofNat 64 off)
      (s.mem.bytes (o.src.toNat + off) n) (packetMarks gs (o.src.toNat + off) n) none

def State.send (s : State) (f : FaceId) (o : SendOp) : State :=
  let a := o.src.toNat
  let pkts := s.sendPackets f o (s.mem.markedIn a o.bytes)
  pkts.foldl State.post
    (((s.foldWords f true (scratchWords f a o.bytes)).noteReads (.face f.val) [(a, o.bytes)]).spoilBuckets false a o.bytes)

/-- Rules of a send: V, rank, its source, and the destination's address, which the same map decodes on every member (R239). -/
def fabricSendRule (s : State) (f : FaceId) (o : SendOp) : Option Nat :=
  firstOf [sendRule o, checks [
    (decide (o.rank < s.pitSize), 274), (s.mem.rangeOk o.src.toNat o.bytes && s.mem.rangeOk o.dst.toNat o.bytes, 239),
    (!touchesFixed s.strm.slotK.toNat o.dst.toNat o.bytes, 242), (!s.earlyGroup f o.src.toNat o.bytes, 253)]]

def execFabricSend (f : FaceId) (o : SendOp) (s : State) : Result := issue s f (.fabricSend f o) (fabricSendRule s f o) fun s => s.send f o

/-! ### ATOMIC_ADD (R252) -/

/-- FMT of a source stream for an adder's format; a stream of quire fragments has none of its own. -/
def addFmtCode : AddFmt → Option Nat
  | .quire128 => some 7 | .quire256 => some 8 | .quire512 => some 9 | .posit16 => some 2 | .posit32 => some 3 | .fragment => none

/-- The Stockpile of a target: the one it lies in, or that of its stack's die (R252; log entry 159). -/
def State.pileOf (s : State) (a : Nat) : Option Nat :=
  match s.mem.region a with
  | .stockpile d _ => some d
  | .hbm m _ => some (m / 2)
  | _ => none

/-- The staging region lies in the free region of the target's Stockpile (R252). -/
def State.stageRangeOk (s : State) (g : GroupDesc) : Bool :=
  s.mem.cmdRangeOk g.stage.toNat g.stageBytes && !touchesFixed s.strm.slotK.toNat g.stage.toNat g.stageBytes
    && (match s.mem.region g.stage.toNat with | .stockpile d _ => s.pileOf g.target.toNat == some d | _ => false)

/-- The source of a contribution: a stream of the group's format and count, or consecutive fragments. -/
def contribRule (c : Tbl) (o : AtomicOp) : Option Nat :=
  let g := o.group
  match addFmtCode g.fmt with
  | some k => firstOf [streamRule c o.src, checks [(o.src.desc.fmt.toNat == k, 251), (streamCount o.src.desc == g.count, 252)]]
  | none => checks [(decide (o.src.desc.base.toNat % 8 = 0 ∧ o.src.desc.base.toNat + groupBytes g ≤ spSize), 101)]

def atomicRule (s : State) (f : FaceId) (o : AtomicOp) : Option Nat :=
  let g := o.group
  let bytes := groupBytes g
  firstOf [groupRule s.cfg.fast g, contribRule (s.tbl f) o, checks [
    (decide (o.rank < s.pitSize), 274), (s.mem.rangeOk g.target.toNat bytes, 239),
    (match s.mem.region g.target.toNat with | .scratchpad .. => false | _ => true, 251),
    (!touchesFixed s.strm.slotK.toNat g.target.toNat bytes, 242),
    (g.stageBytes == 0 || s.stageRangeOk g, 252)]]

/-- What leaves for the adder: the elements with their marks. -/
def State.contribution (s : State) (f : FaceId) (o : AtomicOp) : Contribution :=
  let n := addSize o.group.fmt
  let as := contribAddrs f o
  { group := o.group, opened := s.progTick f, rank := s.pit.rank.toNat, tag := o.tag, data := as.flatMap fun a => s.mem.bytes a n
    marks := (List.range as.length).filter fun i => s.mem.marked (as.getD i 0) n }

/-- The 64-byte pieces of a packet with the bytes of a contribution from `off` on that hold a byte of a marked element. -/
def contribMarks (c : Contribution) (off n : Nat) : List Nat :=
  let w := addSize c.group.fmt
  (List.range ((n + 32 + 63) / 64)).filter fun i =>
    let lo := Nat.max (64 * i) 32 - 32
    let hi := Nat.min (64 * i + 64 - 32) n
    decide (lo < hi) && c.marks.any fun e => meets (e * w) w (off + lo) (hi - lo)

/-- The packets of a contribution; the last of them brings its group, rank and marks (log entry 84). -/
def State.contribPackets (s : State) (o : AtomicOp) (c : Contribution) : List Packet :=
  let cuts := bodyCuts c.data.length
  ((List.range cuts.length).zip cuts).map fun (i, off, n) =>
    s.dataPacket 2 0x02 (s.memberAt o.rank) 0 o.tag c.opened (o.group.target + BitVec.ofNat 64 off) ((c.data.drop off).take n)
      (contribMarks c off n) (if i + 1 = cuts.length then some (.add c) else none)

/-- The contribution leaves for the adder of the target's module, with the marks of its elements. -/
def State.atomicAdd (s : State) (f : FaceId) (o : AtomicOp) : State :=
  let n := addSize o.group.fmt
  let as := contribAddrs f o
  let pkts := s.contribPackets o (s.contribution f o)
  let words := as.foldl (fun l a => (scratchWords f a n).foldl (fun l w => nins w l) l) []
  pkts.foldl State.post ((s.foldWords f true words).noteReads (.face f.val) (as.map fun a => (a, n)))

def execAtomicAdd (f : FaceId) (o : AtomicOp) (s : State) : Result := issue s f (.atomicAdd f o) (atomicRule s f o) fun s => s.atomicAdd f o

/-! ### LANDING_WRITE (R217) -/

/-- A message becomes visible: its bytes reach memory, and the words of a scratchpad count as written (R235). What they replace stays as
the view of a program of an earlier tick. -/
def State.showLanded (s : State) (l : Landed) : State :=
  let a := l.addr.toNat
  let n := l.bytes.length
  let new : Landed := { l with shown := true, under := s.mem.bytes a n, underMarks := s.mem.markedIn a n }
  let m := { s.mem with landing := s.mem.landing.map fun x => if x = l then new else x }
  (({ s with mem := m.writeBytes a l.bytes l.marks } : State).foldRange a n).disturb a n

/-- The landing buffer's entry for a packet. -/
def landedOf (pkt : Packet) : Landed :=
  ⟨⟨pkt.src, pkt.tag, pkt.tick + pkt.vis.setWidth 64⟩, pkt.addr, pkt.body, landingMarks pkt, false, [], []⟩

/-- A landing-write packet of class 2 enters a landing buffer; one that is late becomes visible at once. A write to an address that is no
memory reaches none. Class-1 landing writes are stream records (R202). -/
def State.landingIn (s : State) (pkt : Packet) : State :=
  if pkt.cls = 1 then s
  else
    s.onArrival pkt 0x01 fun s =>
      let l := landedOf pkt
      if !s.mem.rangeOk pkt.addr.toNat pkt.body.length || touchesFixed s.strm.slotK.toNat pkt.addr.toNat pkt.body.length then s
      else
        let s1 : State := { s with mem := { s.mem with landing := s.mem.landing ++ [l] } }
        if l.key.vis.toNat ≤ s.tk.tickCount.toNat then s1.showLanded l else s1

def execLandingWrite (pkt : Packet) (s : State) : Result := .next (s.landingIn pkt)

/-- Step 7: messages whose tick has come become visible, in the order in which they arrived. -/
def State.showMessages (s : State) : State :=
  (s.mem.landing.filter fun l => !l.shown && decide (l.key.vis.toNat ≤ s.tk.tickCount.toNat)).foldl State.showLanded s

end Sys2Proof.Machine
end

