-- ==== Sys2Proof/Machine/Resume.lean ====
section
/-! DEFINITION. The end of a stall: what the Face held waits for no more, and the instruction runs (R217, R253). -/

namespace Sys2Proof.Machine

/-- The instruction that a stalled Face holds, at its turn: one of those that read memory. -/
def runHeld (i : Instr) (s : State) : Result :=
  match i with
  | .benchForwardRead f o => execBenchForwardRead f o s
  | .benchTransposedRead f o => execBenchTransposedRead f o s
  | .weightLoad f o => execWeightLoad f o s
  | .drain f o => execDrain f o s
  | .add f o => execAdd f o s
  | .sub f o => execSub f o s
  | .mul f o => execMul f o s
  | .muladd f o => execMuladd f o s
  | .max f o => execMax f o s
  | .min f o => execMin f o s
  | .abs f o => execAbs f o s
  | .neg f o => execNeg f o s
  | .cmpEq f o => execCmpEq f o s
  | .cmpLt f o => execCmpLt f o s
  | .cmpLe f o => execCmpLe f o s
  | .select f o => execSelect f o s
  | .div f o => execDiv f o s
  | .sqrt f o => execSqrt f o s
  | .convert f o => execConvert f o s
  | .quant f o => execQuant f o s
  | .intFinish f o => execIntFinish f o s
  | .sum f o => execSum f o s
  | .maxr f o => execMaxr f o s
  | .minr f o => execMinr f o s
  | .compress f o => execCompress f o s
  | .expand f o => execExpand f o s
  | .qadd f o => execQadd f o s
  | .tswTest f o => execTswTest f o s
  | .fnExp2 f o => execFnExp2 f o s
  | .fnLog2 f o => execFnLog2 f o s
  | .fnTab f slot o => execFnTab f slot o s
  | .fnGate f o => execFnGate f o s
  | .smax1 f o => execSmax1 f o s
  | .smax2 f o => execSmax2 f o s
  | .normStats f o => execNormStats f o s
  | .normApply f o => execNormApply f o s
  | .normGrad1 f o => execNormGrad1 f o s
  | .normGrad2 f o => execNormGrad2 f o s
  | .smaxGrad1 f o => execSmaxGrad1 f o s
  | .smaxGrad2 f o => execSmaxGrad2 f o s
  | .gsScan f o => execGsScan f o s
  | .moverTransfer f o => execMoverTransfer f o s
  | .fabricSend f o => execFabricSend f o s
  | .atomicAdd f o => execAtomicAdd f o s
  | _ => .next s

/-- Whether what a Face waits for has come. -/
def State.stallOver (s : State) (f : FaceId) : Bool :=
  (s.face f).stall.isSome && (s.face f).held.all fun i => (s.missing f (readRanges f i)).isNone

/-- A held instruction runs. -/
def resumeOne (s : State) (i : Instr) : State :=
  match runHeld i s with
  | .next t => t
  | _ => s

/-- FACE_STALL_END: the Face resumes with what it held. -/
def State.stallEnd (s : State) (f : FaceId) : State :=
  if s.stallOver f then (s.face f).held.foldl resumeOne (s.updFace f fun x => { x with stall := none, held := [] }) else s

def execFaceStallEnd (f : FaceId) (s : State) : Result := .next (s.stallEnd f)

end Sys2Proof.Machine
end

