-- ==== Sys2Proof/Machine/Links.lean ====
section
/-! DEFINITION. Haul links: their states (R264, R273), hellos (R265 to R269), flits with replay (R262, R263), flit slots (R275), and
the timebase (R209, R283, R284). -/

namespace Sys2Proof.Machine

/-! ### Link states (R264) -/

/-- LINK_SIGNAL_DETECT: a DOWN port watches while main power is on. -/
def execLinkSignalDetect (p : PortId) (s : State) : Result :=
  .next (if s.pwr.main && (s.port p).state == .down then s.setLink p .training else s)

/-- LINK_SIGNAL_LOSS. A port that ADMIN_DOWN holds stays DISABLED. -/
def execLinkSignalLoss (p : PortId) (s : State) : Result :=
  .next (if (s.port p).state = .disabled then s else s.setLink p .down)

/-- LINK_TRAINED: the port enters HELLO and sends its hello. -/
def execLinkTrained (p : PortId) (s : State) : Result :=
  .next (if (s.port p).state = .training then (s.setLink p .hello).sendHello p else s)

/-- The port enters FAILED; its record tells whether the Pit runs (R264, R273). -/
def State.linkFail (s : State) (p : PortId) (alignment : Bool) : State :=
  let old := (s.port p).state
  if old.hellos then
    let s1 := (s.updPort p fun x => { x with downs := satInc 32 x.downs }).setLink p .failed
    if s.running then s1.raise 0x0403 (.port p.val) 0 [BitVec.ofNat 8 p.val, if alignment then 1 else 0] else s1.linkRecord p old .failed
  else s

/-- Failures of one flit in a row after which its link fails (R263). -/
def failLimit : Nat := 16

/-- A flit has failed 16 times in a row, on its way here or on its way to the neighbour. -/
def Port.worn (x : Port) : Bool := decide (failLimit ≤ x.fails) || decide (failLimit ≤ x.naks)

/-- LINK_FAIL: alignment is lost for 4 frames, or a flit has failed 16 times; the port counts the failures itself (R263; log entry 160). -/
def execLinkFail (p : PortId) (alignment : Bool) (s : State) : Result :=
  .next (if alignment || (s.port p).worn then s.linkFail p alignment else s)

/-- LINK_RETRAIN_TIMER. -/
def execLinkRetrainTimer (p : PortId) (s : State) : Result :=
  .next (if (s.port p).state = .failed then s.setLink p .training else s)

def execHelloTimer (p : PortId) (s : State) : Result := .next (s.sendHello p)

/-! ### Received hellos (R266, R267, R269) -/

/-- The hello's own CRC and reserved bits. -/
def helloOk (h : List Byte) : Bool :=
  leAt h 60 4 == (crc32c (h.take 60)).toNat && bits (leAt h 2 1) 7 3 == 0 && bits (leAt h 3 1) 7 2 == 0 && !bit (leAt h 4 2) 15
    && bits (leAt h 6 2) 15 12 == 0 && zeroAt h 30 30

/-- The version that two ports agree on: the lower of the highest. -/
def helloVersion (h : List Byte) : Nat := Nat.min 0x20 (leAt h 0 1)

/-- The state into which a hello puts a port. -/
def State.helloJudge (s : State) (p : PortId) (h : List Byte) : LinkSt :=
  if helloVersion h < Nat.max 0x20 (leAt h 1 1) then .mismatch
  else if s.fab.valid && bit (leAt h 3 1) 0 && decide (leAt h 4 2 ≠ (s.neighbour p.val).toNat) then .miswired
  else .up

/-- What a port keeps of a hello (R283, R286). -/
def Port.takeHello (x : Port) (h : List Byte) : Port :=
  { x with
    nbrFaddr := BitVec.ofNat 15 (leAt h 4 2), nbrValid := bit (leAt h 3 1) 0, nbrPort := BitVec.ofNat 3 (leAt h 2 1)
    nbrVer := BitVec.ofNat 8 (leAt h 0 1), nbrTime := bit (leAt h 3 1) 1, nbrDepth := BitVec.ofNat 6 (Nat.min 63 (leAt h 29 1)) }

/-- A hello reaches a port. -/
def State.helloIn (s : State) (p : PortId) (payload : List Byte) : State :=
  let h := (payload.drop 32).take 64
  let old := (s.port p).state
  if !old.hellos then s
  else if !helloOk h then { s with fab := { s.fab with malformed := satInc 32 s.fab.malformed } }
  else
    let new := s.helloJudge p h
    let s1 := (s.updPort p fun x => x.takeHello h).setLink p new
    let s2 := s1.updPort p fun x => { x with linkVer := if new = .up then BitVec.ofNat 8 (helloVersion h) else 0 }
    let s3 := s2.helloChange s2.reparent
    if new ≠ old ∧ new ≠ .up then s3.linkRecord p old new else s3

def execHello (p : PortId) (bytes : List Byte) (s : State) : Result := .next (s.helloIn p bytes)

/-! ### Received flits (R262, R263) -/

/-- Bytes 0 to 5 of the control field. -/
def flitControl (f : Flit) : List Byte :=
  leBytes 2 f.seq.toNat ++ leBytes 2 (f.ack.toNat + 4096 * b2n f.ackValid + 8192 * b2n f.nak)
    ++ [BitVec.ofNat 8 (f.cls.toNat + 4 * b2n f.vc + 8 * b2n f.sop + 16 * b2n f.eop + 32 * b2n f.idle), f.poison.setWidth 8]

def flitCrc (f : Flit) : BitVec 64 := crc64 (f.payload ++ flitControl f)

/-- The replay buffer without what an ACK covers. -/
def dropAcked (a : BitVec 12) (l : List Flit) : List Flit :=
  match l.findIdx? fun f => f.seq == a with
  | some i => l.drop (i + 1)
  | none => l

/-- ACK and NAK of a flit: what is acknowledged leaves the replay buffer, and a NAK starts a replay of the rest. An ACK of a further flit
ends the count of replays of the one before. -/
def Port.takeAck (x : Port) (f : Flit) : Port :=
  let rest := if f.ackValid then dropAcked f.ack x.replay else x.replay
  let y := { x with replay := rest, naks := if rest.length < x.replay.length then 0 else x.naks }
  if f.nak then { y with resend := y.replay, retry := satInc 32 y.retry, naks := y.naks + 1 } else y

/-- The sequence number that comes next in order. -/
def Port.nextSeq (x : Port) : BitVec 12 := if x.rxValid then x.rxSeq + 1 else 0

/-- A KIND that R274 gives the packet's class. -/
def kindOk (cls : Nat) (kind : Nat) : Bool :=
  (decide (1 ≤ kind) && decide (kind ≤ 5)) || (cls == 0 && decide (0x10 ≤ kind) && decide (kind ≤ 0x15))

/-- A packet from its flits. Its body has LEN bytes where LEN agrees with the flits, and all bytes after the header otherwise. -/
def packetOf (fs : List Flit) : Packet :=
  let b := fs.flatMap fun f => padTo 256 f.payload
  let f0 := fs.headD (bareFlit 0 false false false 0 [])
  let w := leAt b 1 1
  let n := leAt b 14 2
  { rtlVer := BitVec.ofNat 8 (leAt b 0 1), cls := BitVec.ofNat 2 w, bcast := bit w 2, sroute := bit w 3
    rsvd := decide (bits w 7 4 ≠ 0) || decide (bits (leAt b 2 2) 15 12 ≠ 0) || bit (leAt b 4 2) 15 || bit (leAt b 6 2) 15
      || decide (bits (leAt b 9 1) 7 4 ≠ 0) || decide (bits (leAt b 10 1) 7 6 ≠ 0) || decide (leAt b 11 1 ≠ 0)
      || decide (w % 4 ≠ f0.cls.toNat)
    pit := BitVec.ofNat 12 (leAt b 2 2), dst := BitVec.ofNat 15 (leAt b 4 2), src := BitVec.ofNat 15 (leAt b 6 2)
    kind := BitVec.ofNat 8 (leAt b 8 1), vis := BitVec.ofNat 4 (leAt b 9 1), hops := BitVec.ofNat 6 (leAt b 10 1)
    tag := BitVec.ofNat 16 (leAt b 12 2), len := BitVec.ofNat 16 n, tick := BitVec.ofNat 64 (leAt b 16 8)
    addr := BitVec.ofNat 64 (leAt b 24 8)
    body := if ceilDiv (32 + n) 256 = fs.length ∧ n ≤ maxBody then (b.drop 32).take n else b.drop 32
    marks := ((List.range fs.length).zip fs).flatMap fun (k, f) => ((List.range 4).filter fun i => f.poison.getLsbD i).map (4 * k + ·)
    vc := f0.vc, load := f0.load }

/-- A flit of a packet: packets of each class and virtual channel are put together apart. A whole one waits to be routed. -/
def State.assemble (s : State) (p : PortId) (f : Flit) : State :=
  let x := s.port p
  let mine := fun (g : Flit) => g.cls == f.cls && g.vc == f.vc
  let part := x.rxPart.filter mine
  let rest := x.rxPart.filter fun g => !mine g
  let broken := if f.sop then !part.isEmpty else part.isEmpty && f.eop
  let cur := if f.sop then [f] else if part.isEmpty then [] else part ++ [f]
  let s1 : State := if broken then { s with fab := { s.fab with malformed := satInc 32 s.fab.malformed } } else s
  let s2 := s1.updPort p fun x => { x with rxPart := if f.eop then rest else rest ++ cur }
  if f.eop && !cur.isEmpty then { s2 with fab := { s2.fab with ingress := s2.fab.ingress ++ [packetOf cur] } } else s2

/-- What an accepted flit brings: a hello acts on the port, and only an UP port takes other packets (R264). -/
def State.takeFlit (s : State) (p : PortId) (f : Flit) : State :=
  if f.idle then s
  else if helloFlit f then s.helloIn p f.payload
  else if (s.port p).state = .up then s.assemble p f
  else s

/-- What a flit does to its port: a bad one is discarded with every later one until the replay comes, and NAK goes back. -/
def State.flitCheck (s : State) (p : PortId) (f : Flit) (fecOk : Bool) : State :=
  if !fecOk || f.crc ≠ flitCrc f then s.updPort p fun x => { x with nak := true, discard := true, fails := x.fails + 1 }
  else
    let s1 := s.updPort p fun x => x.takeAck f
    let x := s.port p
    if f.seq = x.nextSeq then
      (s1.updPort p fun x => { x with rxSeq := f.seq, rxValid := true, discard := false, fails := 0 }).takeFlit p f
    else if (f.seq - x.nextSeq).toNat < 2048 then s1.updPort p fun x => { x with nak := x.nak || !x.discard, discard := true }
    else s1

/-- A flit arrives. Sixteen failures of one flit in a row put the port into FAILED. -/
def State.flitIn (s : State) (p : PortId) (f : Flit) (fecOk : Bool) : State :=
  if !(s.port p).state.hellos then s
  else
    let t := s.flitCheck p f fecOk
    if (t.port p).worn then t.linkFail p false else t

def execFlitReceive (p : PortId) (flit : Flit) (fecOk : Bool) (s : State) : Result := .next (s.flitIn p flit fecOk)

/-! ### Flit slots (R263, R275) -/

/-- Flits that the replay buffer holds. -/
def replayDepth : Nat := 512

def Port.q (x : Port) : Nat → List Flit
  | 0 => x.q0 | 1 => x.q1 | 2 => x.q2 | _ => x.q3

def Port.setQ (x : Port) (c : Nat) (l : List Flit) : Port :=
  match c with
  | 0 => { x with q0 := l } | 1 => { x with q1 := l } | 2 => { x with q2 := l } | _ => { x with q3 := l }

/-- The next flit of a class: arrival order, with the virtual channels in turn. -/
def Port.headOf (x : Port) (c : Nat) : Option Nat :=
  let l := x.q c
  match l.findIdx? fun f => f.vc != x.lastVc.getLsbD c with
  | some i => some i
  | none => if l.isEmpty then none else some 0

/-- The class that a slot serves, if any: slots 0 and 200 carry only class 0. -/
def State.slotClass (s : State) (x : Port) (slot : Nat) : Option Nat :=
  if slot = 0 ∨ slot = 200 then (if x.q0.isEmpty then none else some 0)
  else
    ([(0, true), (1, decide (x.used1 < s.cfg.c1Min.toNat)), (3, decide (x.used3 < s.cfg.c3Min.toNat)), (2, true), (1, true),
      (3, true)] : List (Nat × Bool)).findSome? fun (c, on) => if on && !(x.q c).isEmpty then some c else none

/-- The flit that a slot takes from the queues, an IDLE flit where none is ready, and the port after it. -/
def State.slotFlit (s : State) (x : Port) (slot : Nat) : Flit × Port :=
  let idle : Flit := { bareFlit 0 false false false 0 (zeros 256) with idle := true }
  match s.slotClass x slot with
  | none => (idle, x)
  | some c =>
    match x.headOf c with
    | none => (idle, x)
    | some i =>
      let f := (x.q c).getD i idle
      let y := x.setQ c ((x.q c).eraseIdx i)
      let vc := if f.vc then x.lastVc ||| BitVec.ofNat 4 (2 ^ c) else x.lastVc &&& ~~~BitVec.ofNat 4 (2 ^ c)
      (f, { y with lastVc := vc, used1 := x.used1 + b2n (c == 1), used3 := x.used3 + b2n (c == 3) })

/-- A new flit gets its number, its ACK and its CRC, and stays in the replay buffer. -/
def Port.stamp (x : Port) (f : Flit) : Flit :=
  let g := { f with seq := x.txSeq, ack := x.rxSeq, ackValid := x.rxValid, nak := x.nak }
  { g with crc := flitCrc g }

/-- FLIT_SLOT: a replayed flit but in slots 0 and 200, or else a new one. A full replay buffer lets no new flit leave. -/
def State.flitSlot (s : State) (p : PortId) (slot : Nat) : State :=
  let x := s.port p
  if !x.state.hellos then s
  else
    match x.resend, decide (slot = 0 ∨ slot = 200) with
    | f :: r, false => (s.updPort p fun x => { x with resend := r }).emit (.flit p f)
    | _, _ =>
      if replayDepth ≤ x.replay.length then s
      else
        let (f, y) := s.slotFlit x slot
        let g := x.stamp f
        (s.updPort p fun _ => { y with txSeq := x.txSeq + 1, nak := false, replay := x.replay ++ [g] }).emit (.flit p g)

def execFlitSlot (p : PortId) (slot : Fin 400) (s : State) : Result := .next (s.flitSlot p slot.val)

/-! ### Frames and the timebase (R209, R283, R284) -/

/-- The master that this module follows; without one, an address past the torus. -/
def State.masterOf (s : State) : FAddr :=
  if s.fab.masterAct then s.fab.faddr
  else match s.fab.parent with | some p => (s.port p).nbrMaster | none => 0x7FFF

/-- A new frame at a port: its shares begin anew, and one own class-0 flit may leave (R275, R277). -/
def Port.newFrame (x : Port) (clock : Int) : Port :=
  let y := { x with used1 := 0, used3 := 0, sentC0 := false, lastSent := clock, prevSent := x.lastSent }
  match x.own0 with
  | f :: r => { y with own0 := r, q0 := y.q0 ++ [f], sentC0 := true }
  | [] => y

def State.frameOnPort (clock : Int) (s : State) (p : PortId) : State :=
  let x := s.port p
  let s1 := s.updPort p fun x => x.newFrame clock
  if x.state.hellos then
    s1.emit (.marker p s1.tk.frameCount clock x.lastRecv s1.fab.locked s1.fab.depth s1.masterOf)
  else s1

/-- FRAME_BOUNDARY: FRAME_COUNT advances once the timebase is locked, each port sends its marker, and C0_OVER counts a frame in which
a class-0 queue held more than 400 packets (R278). -/
def State.frameBoundary (s : State) (clock : Int) : State :=
  if !s.pwr.hub then s
  else
    let s1 : State := { s with
      tk := { s.tk with frameCount := if s.fab.locked then s.tk.frameCount + 1 else 0, localFrame := s.tk.localFrame + 1 }
      fab := { s.fab with c0Over := if s.fab.c0Flag then satInc 32 s.fab.c0Over else s.fab.c0Over } }
    let s2 := allPorts.foldl (State.frameOnPort clock) s1
    { s2 with fab := { s2.fab with c0Flag := s2.fab.ports.any Port.crowded } }

def execFrameBoundary (clock : Int) (s : State) : Result := .next (s.frameBoundary clock)

/-- When this port sent the marker that the neighbour had last received: the last one, or the one before where the neighbour has held it
for longer than the last one is old (log entry 161). -/
def markerSent (x : Port) (m : Marker) : Int := if m.arrived - x.lastSent < m.sent - m.partner then x.prevSent else x.lastSent

/-- Half the difference of the two one-way delays that a pair of markers measures, in 1/64 ns (R283). -/
def markerOffset (x : Port) (m : Marker) : Int := ((m.arrived - m.sent) - (m.partner - markerSent x m)) / 2

/-- Two masters: the one with the higher address steers as a follower (R284). -/
def State.yieldMaster (s : State) (m : Marker) : State :=
  if s.fab.masterAct && m.locked && decide (m.master.toNat < s.fab.faddr.toNat) then
    ({ s with fab := { s.fab with masterAct := false } }).raise 0x0108 .module 0 (leBytes 2 m.master.toNat)
  else s

/-- FRAME_MARKER on a port that carries traffic. An offset beyond 20 ns from an UP neighbour is TIME_DRIFT (R209). -/
def State.frameMarker (s : State) (p : PortId) (m : Marker) : State :=
  let x := s.port p
  if !x.state.hellos then s
  else
    let off := markerOffset x m
    let s1 := s.updPort p fun x =>
      { x with nbrTime := m.locked, nbrDepth := m.depth, nbrMaster := m.master, lastRecv := m.arrived }
    let s2 : State := { s1 with fab := { s1.fab with
      maxFrame := if s1.fab.maxFrame.toNat < m.frame.toNat then m.frame else s1.fab.maxFrame } }
    let s3 := s.helloChange (s2.yieldMaster m).reparent
    let s4 : State := if s3.fab.parent = some p then { s3 with fab := { s3.fab with offset := BitVec.ofInt 16 off } } else s3
    if s4.fab.locked && m.locked && x.state == .up && decide (1280 < off.natAbs) then
      s4.raise 0x0401 (.port p.val) 0 ([BitVec.ofNat 8 p.val, 0, 0, 0] ++ leBytes 4 (BitVec.ofInt 32 off).toNat)
    else s4

def execFrameMarker (p : PortId) (mk : Marker) (s : State) : Result := .next (s.frameMarker p mk)

/-- TIMEBASE_LOCK. -/
def execTimebaseLock (s : State) : Result := .next (if s.fab.locked then s else s.lockTime)

end Sys2Proof.Machine
end

