-- ==== Sys2Proof/Machine/Routing.lean ====
section
/-! DEFINITION. Packets inside the module: checks, the Pit filter, routing and delivery (R272, R274, R279, R281), replies that arrive
over class 1 (R202, R206), and class-0 management (R274). -/

namespace Sys2Proof.Machine

/-! ### PACKET_ROUTE -/

/-- A packet that ingress discards (R274). -/
def malformed (k : Packet) : Bool :=
  k.rtlVer != 0x20 || k.rsvd || decide (k.body.length ≠ k.len.toNat) || decide (maxBody < k.len.toNat)
    || (k.cls == 0 && decide (224 < k.len.toNat)) || !kindOk k.cls.toNat k.kind.toNat

def State.countMalformed (s : State) : State := { s with fab := { s.fab with malformed := satInc 32 s.fab.malformed } }
def State.countPitDrop (s : State) : State := { s with fab := { s.fab with pitDrop := satInc 32 s.fab.pitDrop } }
def State.countUnreach (s : State) : State := { s with fab := { s.fab with unreach := satInc 32 s.fab.unreach } }
def State.countHopDrop (s : State) : State := { s with fab := { s.fab with hopDrop := satInc 32 s.fab.hopDrop } }

/-- One hop on a port: HOPS grows, and the packet queues there; a port that is not UP, and no port, drop it (R272). -/
def State.hop (s : State) (own : Bool) (k : Packet) (port : Nat) (vcx : Bool) : State :=
  if h : port < 6 then
    if (s.port ⟨port, h⟩).state ≠ .up then s.countUnreach
    else if 62 ≤ k.hops.toNat then s.countHopDrop
    else s.enqueue ⟨port, h⟩ own k.cls (packetFlits { k with hops := k.hops + 1, vc := k.vc || vcx })
  else s.countUnreach

/-- Kinds whose packets wait, delivered, for the command that acts on them: all but the hello, which its port takes (R265). -/
def heldKind (kind : Byte) : Bool :=
  (decide (1 ≤ kind.toNat) && decide (kind.toNat ≤ 5)) || (decide (0x10 ≤ kind.toNat) && decide (kind.toNat ≤ 0x14))

def State.deliverPacket (s : State) (k : Packet) : State :=
  if heldKind k.kind then { s with fab := { s.fab with delivered := s.fab.delivered ++ [k] } } else s

/-- The port of a source route at a hop, and its number of hops (R274). -/
def sroutePort (addr : BitVec 64) (i : Nat) : Nat := bits addr.toNat (3 * i + 2) (3 * i)
def srouteHops (addr : BitVec 64) : Nat := bits addr.toNat 63 60

/-- The route of a packet that passed the filters. -/
def State.routePacket (s : State) (own : Bool) (k : Packet) : State :=
  if k.cls = 0 ∧ k.sroute then
    if k.hops.toNat < srouteHops k.addr then s.hop own k (sroutePort k.addr k.hops.toNat) false else s.deliverPacket k
  else if k.cls = 0 ∧ k.bcast then
    let e := s.bcEntry k.src
    let s1 := if bit e 6 then s.deliverPacket k else s
    (List.range 6).foldl (fun s p => if bit e p then s.hop own k p false else s) s1
  else
    let data := k.cls != 0
    let e := s.uniEntry k.dst
    if uniPort e data = 6 then s.deliverPacket k else s.hop own k (uniPort e data) (uniVcx e data)

/-- PACKET_ROUTE of a packet that the module has formed (no port), or that has arrived. -/
def State.packetRoute (s : State) (src : Option PortId) (k : Packet) : State :=
  match src with
  | none =>
    if s.fab.own.contains k then
      ({ s with fab := { s.fab with own := s.fab.own.erase k } }).routePacket true k
    else s
  | some _ =>
    if s.fab.ingress.contains k then
      let s1 : State := { s with fab := { s.fab with ingress := s.fab.ingress.erase k } }
      if malformed k then s1.countMalformed
      else if k.cls ≠ 0 ∧ k.pit ≠ s.pit.id then s1.countPitDrop
      else if 63 ≤ k.hops.toNat then s1.countHopDrop
      else s1.routePacket false k
    else s

def execPacketRoute (src : Option PortId) (pkt : Packet) (s : State) : Result := .next (s.packetRoute src pkt)

/-! ### REPLY_PACKET -/

/-- The failure that a reply reports of a record's landing (R202). -/
def landingFailure (b : List Byte) : Option Refuse :=
  let payload := (b.drop 16).take (leAt b 12 2)
  if leAt b 2 2 = Status.badParam.code then some (.badParam, payload)
  else if leAt b 2 2 = Status.memPoisoned.code then some (.memPoisoned, payload)
  else none

/-- The export whose record went to a module with a tag. -/
def State.exportTo (s : State) (a : FAddr) (tag : BitVec 16) : Option (StreamEnt × Export) :=
  s.strm.ents.findSome? fun e =>
    (e.exports.find? fun x => x.remote && x.record.isSome && !x.written && x.faddr == a && x.tkt.key.tag == tag).map fun x => (e, x)

/-- A reply over class 1. A destination's refusal of a record ends the export; a reply of a stream service goes to the module's
client, which is no part of the module. -/
def State.replyPacket (s : State) (k : Packet) : State :=
  s.onArrival k 0x04 fun s =>
    match landingFailure k.body, s.exportTo k.src (BitVec.ofNat 16 (leAt k.body 0 2)) with
    | some r, some (e, x) => s.exportFailed e x r
    | _, _ => s

def execReplyPacket (pkt : Packet) (s : State) : Result := .next (s.replyPacket pkt)

/-! ### MANAGEMENT -/

/-- The source route of a reply: the request's ports in reverse order, each facing the one that the request took. -/
def reversedRoute (addr : BitVec 64) : BitVec 64 :=
  let n := srouteHops addr
  BitVec.ofNat 64 (((List.range n).map fun i => (sroutePort addr (n - 1 - i) ^^^ 1) * 8 ^ i).foldl (· + ·) (n * 2 ^ 60))

def State.managementReply (s : State) (k : Packet) : Packet :=
  let body := (Config.managementReply k.body).take 224
  { k with
    rtlVer := 0x20, pit := 0, dst := k.src, src := s.fab.faddr, kind := 0x14, vis := 0, hops := 0, len := BitVec.ofNat 16 body.length
    tick := s.tk.tickCount, addr := if k.sroute then reversedRoute k.addr else 0, body := body, marks := [], vc := false, load := none }

/-- MANAGEMENT: the request is served, and its reply goes back. -/
def State.management (s : State) (k : Packet) : State := s.onArrival k 0x14 fun s => s.post (s.managementReply k)

def execManagement (_p : PortId) (pkt : Packet) (s : State) : Result := .next (s.management pkt)

end Sys2Proof.Machine
end

