-- ==== Sys2Proof/Machine/Commands.lean ====
section
/-! DEFINITION. The command rows: how a packet comes to the Derrick on each path, when it is accepted, and the meaning of each opcode
(R315 to R324). -/

namespace Sys2Proof.Machine

/-- Steps 8 and 9 of R320 and the effect of each opcode. -/
def acceptOf : Op → Accept
  | .cfgRead => acceptCfgRead
  | .cfgStage => acceptCfgStage
  | .cfgCommit => acceptCfgCommit
  | .progLoad => acceptProgLoad
  | .progVerify => acceptProgVerify
  | .launch => acceptLaunch
  | .haltAt => acceptHaltAt
  | .epochBegin => acceptEpochBegin
  | .streamOpen => acceptStreamOpen
  | .streamChunk => acceptStreamChunk
  | .streamPause => acceptStreamPause
  | .streamResume => acceptStreamResume
  | .streamExport => acceptStreamExport
  | .streamImport => acceptStreamImport
  | .streamClose => acceptStreamClose
  | .streamQuery => acceptStreamQuery
  | .collBucketDef => acceptCollBucketDef
  | .collArm => acceptCollArm
  | .collQuery => acceptCollQuery
  | .tableLoad => acceptTableLoad
  | .tableSwap => acceptTableSwap
  | .tableQuery => acceptTableQuery
  | .memCopy => acceptMemCopy
  | .memFill => acceptMemFill
  | .memScrub => acceptMemScrub
  | .memRetire => acceptMemRetire
  | .readyQuery => acceptReadyQuery
  | .bistRun => acceptBistRun
  | .faceRetire => acceptFaceRetire
  | .fwPiece => acceptFwPiece
  | .fwStatus => acceptFwStatus
  | .fwConfirm => acceptFwConfirm
  | .fwRelayEnable => acceptFwRelayEnable
  | .twinPair => acceptTwinPair
  | .twinUnpair => acceptTwinUnpair
  | .errRead => acceptErrRead
  | .errAck => acceptErrAck
  | .pitCreate => acceptPitCreate
  | .pitDestroy => acceptPitDestroy
  | .routeEpoch => acceptRouteEpoch

/-! ### Fetching (R315 to R317) -/

/-- Paths whose commands stand in one order: a queue pair, the management Ethernet, or one sender over class 1. -/
def samePath : Path → Path → Bool
  | .queue a, .queue b => a == b
  | .mgmt _, .mgmt _ => true
  | .fabric a, .fabric b => a == b
  | _, _ => false

/-- The Derrick fetches from a queue pair: it is enabled, without a fault, and its CQ takes a reply. -/
def State.served (s : State) (q : QueueId) : Bool :=
  let x := s.queue q
  s.pwr.derrick && x.enable && !x.error && !x.cqFull && x.held.isEmpty

/-- Fewer than 4,096 commands are outstanding (R317). -/
def State.room (s : State) : Bool := decide (s.host.outstanding.length < 4096)

/-- FENCE: every earlier command of the path has sent its final reply. -/
def State.fenceOk (s : State) (pk : CmdPacket) : Bool :=
  !cmdFence pk || !s.host.outstanding.any fun t => samePath t.key.path pk.path

/-- Commands of one path are accepted in order (R317): while a STREAM_EXPORT of the path waits for its boundary, only another one that
is accepted at that boundary or later goes on (log entry 151). -/
def State.inTurn (s : State) (r : RawPacket) : Bool :=
  let ds := s.strm.deferred.filter fun d => samePath d.2.2.path r.pk.path
  ds.isEmpty || (r.code == 0x0405 && ds.all fun d => decide (d.2.1 ≤ r.pk.execAt.toNat))

/-- A packet at the head of its path may be checked now. -/
def State.mayCheck (s : State) (r : RawPacket) : Bool := s.room && s.fenceOk r.pk && s.inTurn r

/-- The bytes of an SQ slot that holds a packet. -/
def sqSlotBytes (code : Nat) (pk : CmdPacket) : List Byte :=
  [pk.ver, pk.flags] ++ leBytes 2 code ++ leBytes 2 pk.tag.toNat ++ leBytes 2 pk.pitCls.toNat ++ leBytes 8 pk.target.toNat
    ++ leBytes 8 pk.execAt.toNat ++ leBytes 4 pk.plen.toNat ++ leBytes 4 pk.crc.toNat ++ padTo 4064 pk.params

def Queue.slotAddr (x : Queue) (i : Nat) : Nat := x.sqBase.toNat + i % x.sqSize * 4096

def Queue.pop (x : Queue) : Queue := { x with sqHead := BitVec.ofNat 32 ((x.sqHead.toNat + 1) % x.sqSize) }
def Queue.push (x : Queue) : Queue := { x with sqTail := BitVec.ofNat 32 ((x.sqTail.toNat + 1) % x.sqSize) }

/-- A queue pair holds no command that is not fetched. -/
def Queue.drained (x : Queue) : Bool := x.sqHead == x.sqTail

/-- The packet in a queue's next SQ slot. -/
def State.sqPacket (s : State) (q : QueueId) : RawPacket :=
  let x := s.queue q
  parsePacket (.queue q) (Cells.read s.host.hostMem (x.slotAddr x.sqHead.toNat) 4096)

/-- One visit of a queue in the rotation: the next command is fetched and checked, if it may be; none leaves the state. -/
def State.visit (s : State) (q : QueueId) : Option State :=
  if s.served q && !(s.queue q).drained then
    let r := s.sqPacket q
    if s.mayCheck r then some ((s.updQueue q Queue.pop).check acceptOf r) else none
  else none

/-- The first command that waits, of a path without an earlier one, and may be accepted now. -/
def State.nextWaiting (s : State) : Option (Nat × CmdPacket) :=
  let l := s.host.waiting
  if s.pwr.derrick then
    l.find? fun w => s.mayCheck ⟨w.1, w.2⟩ && (match l.find? fun v => samePath v.2.path w.2.path with | some v => v == w | none => false)
  else none

def State.takeWaiting (s : State) : Option State :=
  s.nextWaiting.map fun w => ({ s with host := { s.host with waiting := s.host.waiting.erase w } }).check acceptOf ⟨w.1, w.2⟩

/-- The queue whose turn it is in the rotation from Q0 to Q63 is visited, and the turn passes on; beyond 4,096 outstanding commands
nothing is fetched and the turn stays (R317). -/
def State.turn (b : State × Bool) : State × Bool :=
  if b.1.room then
    let q := b.1.host.nextQ
    let s : State := { b.1 with host := { b.1.host with nextQ := q + 1 } }
    match s.visit q with
    | some t => (t, true)
    | none => (s, b.2)
  else b

/-- One rotation over what waits and over the 64 queues; none where nothing could be accepted. -/
def State.rotation (s : State) : Option State :=
  let b := match s.takeWaiting with | some t => (t, true) | none => (s, false)
  let e := (List.range 64).foldl (fun b _ => State.turn b) b
  if e.2 then some e.1 else none

/-- Rotations until nothing more can be accepted; a queue holds fewer than 4,096 commands. -/
def State.rotations : Nat → State → State
  | 0, s => s
  | n + 1, s => match s.rotation with | some t => State.rotations n t | none => s

def State.pump (s : State) : State := s.rotations 8192

/-! ### Arrival -/

/-- A packet arrives over the management Ethernet or class 1: it is checked at once, or waits behind the earlier ones of its path. While
the Derrick is down the Weighbridge answers the first (R317). -/
def State.arrive (s : State) (r : RawPacket) : State :=
  let ready := s.mayCheck r && !s.host.waiting.any fun v => samePath v.2.path r.pk.path
  match r.pk.path with
  | .mgmt _ =>
    if !s.pwr.weighbridge then s
    else if !s.pwr.derrick || ready then s.check acceptOf r
    else { s with host := { s.host with waiting := s.host.waiting ++ [(r.code, r.pk)] } }
  | _ =>
    if !s.pwr.derrick then s
    else if ready then s.check acceptOf r
    else { s with host := { s.host with waiting := s.host.waiting ++ [(r.code, r.pk)] } }

/-- A packet comes into an SQ and its doorbell is rung: the Derrick fetches it at once, or it stays in its slot. A full SQ takes none. -/
def State.submit (s : State) (q : QueueId) (r : RawPacket) : State :=
  let x := s.queue q
  if s.served q && x.drained && s.mayCheck r then (s.updQueue q fun x => x.push.pop).check acceptOf r
  else if (x.sqTail.toNat + 1) % x.sqSize = x.sqHead.toNat % x.sqSize then s
  else
    { (s.updQueue q Queue.push) with
      host := { (s.updQueue q Queue.push).host with
        hostMem := Cells.write s.host.hostMem (x.slotAddr x.sqTail.toNat) (sqSlotBytes r.code r.pk) } }

/-- A command row: its opcode's packet on its path. -/
def State.command (s : State) (o : Op) (pk : CmdPacket) : State :=
  let r : RawPacket := ⟨(opInfo o).code, pk⟩
  match pk.path with
  | .queue q => s.submit q r
  | _ => s.arrive r

/-! ### The commands -/

def execCfgRead (pk : CmdPacket) (s : State) : Result := .next (s.command .cfgRead pk)
def execCfgStage (pk : CmdPacket) (s : State) : Result := .next (s.command .cfgStage pk)
def execCfgCommit (pk : CmdPacket) (s : State) : Result := .next (s.command .cfgCommit pk)
def execProgLoad (pk : CmdPacket) (s : State) : Result := .next (s.command .progLoad pk)
def execProgVerify (pk : CmdPacket) (s : State) : Result := .next (s.command .progVerify pk)
def execLaunch (pk : CmdPacket) (s : State) : Result := .next (s.command .launch pk)
def execHaltAt (pk : CmdPacket) (s : State) : Result := .next (s.command .haltAt pk)
/-- EPOCH_BEGIN comes with the clock plans that the exchange with the Pit's other members has told (R26; log entry 60). -/
def execEpochBegin (c : EpochCmd) (s : State) : Result :=
  .next (({ s with pit := { s.pit with plans := c.plans } } : State).command .epochBegin c.pk)
def execStreamOpen (pk : CmdPacket) (s : State) : Result := .next (s.command .streamOpen pk)
def execStreamChunk (pk : CmdPacket) (s : State) : Result := .next (s.command .streamChunk pk)
def execStreamPause (pk : CmdPacket) (s : State) : Result := .next (s.command .streamPause pk)
def execStreamResume (pk : CmdPacket) (s : State) : Result := .next (s.command .streamResume pk)
def execStreamExport (pk : CmdPacket) (s : State) : Result := .next (s.command .streamExport pk)
def execStreamImport (pk : CmdPacket) (s : State) : Result := .next (s.command .streamImport pk)
def execStreamClose (pk : CmdPacket) (s : State) : Result := .next (s.command .streamClose pk)
def execStreamQuery (pk : CmdPacket) (s : State) : Result := .next (s.command .streamQuery pk)
def execCollBucketDef (pk : CmdPacket) (s : State) : Result := .next (s.command .collBucketDef pk)
def execCollArm (pk : CmdPacket) (s : State) : Result := .next (s.command .collArm pk)
def execCollQuery (pk : CmdPacket) (s : State) : Result := .next (s.command .collQuery pk)
def execTableLoad (pk : CmdPacket) (s : State) : Result := .next (s.command .tableLoad pk)
def execTableSwap (pk : CmdPacket) (s : State) : Result := .next (s.command .tableSwap pk)
def execTableQuery (pk : CmdPacket) (s : State) : Result := .next (s.command .tableQuery pk)
def execMemCopy (pk : CmdPacket) (s : State) : Result := .next (s.command .memCopy pk)
def execMemFill (pk : CmdPacket) (s : State) : Result := .next (s.command .memFill pk)
def execMemScrub (pk : CmdPacket) (s : State) : Result := .next (s.command .memScrub pk)
def execMemRetire (pk : CmdPacket) (s : State) : Result := .next (s.command .memRetire pk)
def execReadyQuery (pk : CmdPacket) (s : State) : Result := .next (s.command .readyQuery pk)
def execBistRun (pk : CmdPacket) (s : State) : Result := .next (s.command .bistRun pk)
def execFaceRetire (pk : CmdPacket) (s : State) : Result := .next (s.command .faceRetire pk)
def execFwPiece (pk : CmdPacket) (s : State) : Result := .next (s.command .fwPiece pk)
def execFwStatus (pk : CmdPacket) (s : State) : Result := .next (s.command .fwStatus pk)
def execFwConfirm (pk : CmdPacket) (s : State) : Result := .next (s.command .fwConfirm pk)
def execFwRelayEnable (pk : CmdPacket) (s : State) : Result := .next (s.command .fwRelayEnable pk)
/-- TWIN_PAIR comes with what the exchange with the partner has told, if any (R234; log entry 58). -/
def execTwinPair (c : TwinCmd) (s : State) : Result :=
  .next (({ s with twin := { s.twin with heard := c.partner } } : State).command .twinPair c.pk)
def execTwinUnpair (pk : CmdPacket) (s : State) : Result := .next (s.command .twinUnpair pk)
def execErrRead (pk : CmdPacket) (s : State) : Result := .next (s.command .errRead pk)
def execErrAck (pk : CmdPacket) (s : State) : Result := .next (s.command .errAck pk)
def execPitCreate (pk : CmdPacket) (s : State) : Result := .next (s.command .pitCreate pk)
def execPitDestroy (pk : CmdPacket) (s : State) : Result := .next (s.command .pitDestroy pk)
def execRouteEpoch (pk : CmdPacket) (s : State) : Result := .next (s.command .routeEpoch pk)

/-! ### COMMAND_PACKET and MGMT_DATAGRAM -/

/-- COMMAND_PACKET: a command over class 1 (R206). -/
def execCommandPacket (pkt : Packet) (s : State) : Result :=
  .next (s.onArrival pkt 0x03 fun s => s.arrive (parsePacket (.fabric pkt.src) pkt.body))

/-- MGMT_DATAGRAM: one packet in a datagram to port 47,200. -/
def execMgmtDatagram (sender : BitVec 48) (bytes : List Byte) (s : State) : Result :=
  .next (s.arrive (parsePacket (.mgmt sender) bytes))

end Sys2Proof.Machine
end

