-- ==== Sys2Proof/Machine/HostPort.lean ====
section
/-! DEFINITION. The host's port: doorbells and queue faults (R315, R316), direct writes of CSRs and live fields (R11, R216, R314), BAR4
(R313), and the start of the hub die (R340). -/

namespace Sys2Proof.Machine

/-- The hub die is up, and with it the Derrick (R340). -/
def execHubStartDone (s : State) : Result :=
  .next (if s.pwr.main && !s.pwr.hub then ({ s with pwr := { s.pwr with hub := true, derrick := true } }).pump else s)

/-! ### Doorbells (R316) -/

def State.queueFault (s : State) (q : QueueId) : State := s.updQueue q fun x => { x with error := true }

/-- SQ_DOORBELL. One that comes before the Derrick is ready is kept. -/
def execSqDoorbell (q : QueueId) (tail : BitVec 32) (s : State) : Result :=
  .next (if (s.queue q).sqSize ≤ tail.toNat then s.queueFault q else (s.updQueue q fun x => { x with sqTail := tail }).pump)

/-- Replies that a full CQ held are written while entries are free. -/
def State.release (s : State) (q : QueueId) : List Reply → State
  | [] => s.updQueue q fun x => { x with held := [] }
  | r :: rest =>
    if (s.queue q).cqFull then s.updQueue q fun x => { x with held := r :: rest } else (s.cqWrite q r).release q rest

/-- CQ_DOORBELL. -/
def execCqDoorbell (q : QueueId) (head : BitVec 32) (s : State) : Result :=
  .next (if (s.queue q).cqSize ≤ head.toNat then s.queueFault q
    else
      let s1 := s.updQueue q fun x => { x with cqHead := head }
      (s1.release q (s1.queue q).held).pump)

/-- QUEUE_ENABLE. -/
def execQueueEnable (q : QueueId) (enable : Bool) (s : State) : Result := .next (s.updQueue q fun x => x.setEnable enable).pump

def execQueuePcieError (q : QueueId) (s : State) : Result := .next (s.queueFault q)

/-! ### CSR_WRITE and the live fields -/

/-- An aligned access of 4 or 8 bytes within the CSR space (R313, R314). -/
def csrForm (off size : Nat) : Bool :=
  (size == 4 || size == 8) && off % size == 0 && decide (off + size ≤ 0x10000000)

/-- The access on its register: a read brings the bytes, an 8-byte one all of a register at once; a write acts by the fields' access codes
(R314). -/
def State.csrAccess (s : State) (path : CsrPath) (off size : Nat) (value : Option (BitVec 64)) : State :=
  let sh := 2 ^ (8 * (off % 8))
  match value with
  | none => s.emit (.csrData path (leBytes size (s.csr64 (off - off % 8) / sh)))
  | some v => (s.csrDirect (off - off % 8) (v.toNat % 2 ^ (8 * size) * sh) ((2 ^ (8 * size) - 1) * sh)).pump

/-- CSR_WRITE, and with `value` none the reads of R314. The hub die answers BAR0 and the Weighbridge the chain. Another form of access changes
nothing. While the hub die is off, the chain reaches the registers of the standby domain alone (R17, R328); the form is checked first
(log entry 124). -/
def State.csr (s : State) (path : CsrPath) (off size : Nat) (value : Option (BitVec 64)) : State :=
  match path with
  | .bar0 => if !s.pwr.hub then s else if csrForm off size then s.csrAccess path off size value else s.emit .unsupported
  | .chain =>
    if !s.pwr.weighbridge then s
    else if !csrForm off size then s.emit .nack
    else if s.pwr.hub || !hubRegisters (off - off % 8) 1 then s.csrAccess path off size value
    else match value with | none => s.emit .csrNotReady | some _ => s

def execCsrWrite (path : CsrPath) (off size : Nat) (value : Option (BitVec 64)) (s : State) : Result := .next (s.csr path off size value)

/-- A live field acts at once while the hub die is up (R216). -/
def State.live (s : State) (f : State → State) : State := if s.pwr.hub then f s else s

def execConvCntCtlClear (s : State) : Result := .next (s.live State.clearConv)
def execSpallCntCtlClear (s : State) : Result := .next (s.live State.clearSpall)
def execFnCntCtlClear (s : State) : Result := .next (s.live State.clearFn)
def execSlackClear (s : State) : Result := .next (s.live State.clearSlack)

/-- One trace enable (R332). -/
def State.traceEnable (s : State) (i : Nat) (on : Bool) : State :=
  s.live fun s => s.setTrace (maskIn s.cfg.traceCtl.toNat (if on then 2 ^ i else 0) (2 ^ i))

def execTickEv (on : Bool) (s : State) : Result := .next (s.traceEnable 0 on)
def execCmdEv (on : Bool) (s : State) : Result := .next (s.traceEnable 1 on)
def execFabEv (on : Bool) (s : State) : Result := .next (s.traceEnable 2 on)
def execErrEv (on : Bool) (s : State) : Result := .next (s.traceEnable 3 on)

/-! ### BAR4_ACCESS (R313) -/

def barBytes : BarAcc → Nat
  | .read n => n
  | .write b => b.length

/-- An access through the window. -/
def State.bar4 (s : State) (off : Nat) (acc : BarAcc) : State :=
  let a := s.cfg.hostWin.toNat * gib + off
  let n := barBytes acc
  if !s.pwr.hub then s
  else if !(decide (off + n ≤ gib) && s.mem.rangeOk a n) then s.emit .unsupported
  else
    match acc with
    | .read n => (s.noteReads .hub [(a, n)]).emit (.hostRead (s.mem.bytes a n) (!(s.mem.markedIn a n).isEmpty))
    | .write b => ({ s with mem := s.mem.writeBytes a b [] }).hostWrite a n

def execBar4Access (off : Nat) (acc : BarAcc) (s : State) : Result := .next (s.bar4 off acc)

end Sys2Proof.Machine
end

