-- ==== Sys2Proof/Machine/Tick.lean ====
section
/-! DEFINITION. The tick boundary: the eleven steps of R214, and the end of a halt (R221). -/

namespace Sys2Proof.Machine

/-! ### Step 1: the new tick -/

/-- X: one more than the tick that ends, or, at a new Pit's origin, the count that the origin gives (R210). -/
def State.nextTick (s : State) : Nat :=
  if s.tk.originDue && decide (s.tk.originFrame.toNat ≤ s.frameNow) then
    s.tk.startTick + (s.frameNow - s.tk.originFrame.toNat) / Nat.max 1 s.cfg.tpCur.toNat
  else s.tk.tickCount.toNat + 1

/-- The origin of a new Pit is still to come. -/
def State.originWaits (s : State) : Bool := s.tk.originDue && !decide (s.tk.originFrame.toNat ≤ s.frameNow)

/-- Counters after a tick with the given totals (R47, R121, R155). -/
def Counters.plus (c : Counters) (t : Totals) : Counters :=
  { infIn := satAdd 32 c.infIn t.infIn, nanIn := satAdd 32 c.nanIn t.nanIn, convRange := satAdd 32 c.convRange t.convRange
    convNar := satAdd 32 c.convNar t.convNar, bpBad := satAdd 32 c.bpBad t.bpBad, scaleClamp := satAdd 32 c.scaleClamp t.scaleClamp
    spallFull := satAdd 32 c.spallFull t.spallFull, spallMiss := satAdd 32 c.spallMiss t.spallMiss
    fnFlush := satAdd 32 c.fnFlush t.fnFlush, fnDomain := satAdd 32 c.fnDomain t.fnDomain
    fnNotable := satAdd 32 c.fnNotable t.fnNotable, fnEmpty := satAdd 32 c.fnEmpty t.fnEmpty }

/-- The totals of all Faces in the tick that ends. -/
def State.totals (s : State) : Totals := s.faces.foldl (fun t x => t.plus x.tot) Totals.zero

/-- A boundary at a new Pit's origin is not into the tick after the last: what waits for the next boundary goes with it, and what names a
tick that the origin leaves out can take effect at no boundary (R214; log entry 126). -/
def atOrigin (next x a : Nat) : Option Nat := if a = next then some x else if next < a ∧ a < x then none else some a

/-- Events are renamed for an origin at `x`. Commands whose boundary never comes reply NOT_READY, and a pending LAUNCH is cancelled. -/
def State.rename (s : State) (x : Nat) : State :=
  let moved := atOrigin (s.tk.tickCount.toNat + 1) x
  let c := s.sched
  let s1 : State := { s with
    sched := { c with
      halts := c.halts.filterMap fun h => (moved h.target).map fun t => { h with target := t }
      exts := c.exts.filterMap fun e => (moved e.target).map fun t => { e with target := t }
      haltAts := c.haltAts.filterMap fun h => (moved h.at_).map fun t => { h with at_ := t }
      commits := c.commits.filterMap fun m => (moved m.at_).map fun t => { m with at_ := t }
      epoch := c.epoch.bind fun e => (moved e.at_).map fun t => { e with at_ := t }
      launch := c.launch.map fun l => { l with at_ := (moved l.at_).getD l.at_ }
      swaps := c.swaps.filterMap fun w => (moved w.2.1).map fun t => (w.1, t, w.2.2) }
    strm := { s.strm with deferred := s.strm.deferred.filterMap fun d => (moved d.2.1).map fun t => (d.1, t, d.2.2) }
    faces := s.faces.map fun f => { f with units := { f.units with banks := { f.units.banks with swapAt := f.units.banks.swapAt.bind moved } } } }
  let lost := (c.haltAts.filter fun h => (moved h.at_).isNone).map (·.tkt) ++ (c.commits.filter fun m => (moved m.at_).isNone).map (·.tkt)
    ++ (c.epoch.toList.filter fun e => (moved e.at_).isNone).map (·.tkt) ++ (c.swaps.filter fun w => (moved w.2.1).isNone).map (·.1)
    ++ (s.strm.deferred.filter fun d => (moved d.2.1).isNone).map (·.1)
  let s2 := lost.foldl (fun s t => s.finish t .notReady []) s1
  if c.launch.any fun l => (moved l.at_).isNone then
    { s2.cancelLaunch 0 x with tk := { (s2.cancelLaunch 0 x).tk with run := .stopped } }
  else s2

/-- What waits for boundaries, at the boundary into X. -/
def State.rescheduled (s : State) : State := if s.nextTick = s.tk.tickCount.toNat + 1 then s else s.rename s.nextTick

/-- TICK_COUNT becomes X, and the counters receive the totals. -/
def State.enterTick (s0 : State) : State :=
  let s := s0.rescheduled
  let s1 : State := { s with
    tk := { s.tk with tickCount := BitVec.ofNat 64 s0.nextTick, originDue := s0.originWaits }
    cnt := s.cnt.plus s.totals
    faces := s.faces.map fun x => { x with tot := Totals.zero, notableSeen := false } }
  s1.collTotals

/-! ### Step 2: halts (R200, R220, R221, R255, R309) -/

/-- The halt of the earliest target, the first scheduled of equal ones. -/
def earliestHalt (l : List Halt) : Option Halt :=
  l.foldl (fun b h => match b with | none => some h | some o => if h.target < o.target then some h else b) none

/-- The last Face has stopped: what has not completed goes back, the Pit is STOPPED, and a mismatched twin sends its Face digests. -/
def State.endHalt (s : State) (tick : Nat) : State := ((s.stopNow tick).requeueFrom 0).sendFaces

/-- A halt takes effect at the boundary into `x`. A Face that is stalled past STALL_LIMIT stops there (log entry 156). -/
def State.haltHere (s : State) (h : Halt) (x : Nat) : State :=
  let s1 : State := { s with
    tk := { s.tk with
      haltTick := BitVec.ofNat 64 x, cause := h.cause, remote := h.remote, run := .halting, haltTaken := true, odcDue := true }
    sched := { s.sched with halts := [] } }
  let s2 := (((s1.cancelLaunch h.cause x).requeueFrom x).abortPasses x).dropGroups
  let s3 : State := { s2 with faces := s2.faces.map s2.giveUp }
  if s3.anyRunning then s3 else s3.endHalt x

/-- Step 2. -/
def State.takeHalt (s : State) : State :=
  let x := s.tk.tickCount.toNat
  match earliestHalt (s.sched.halts.filter fun h => h.target == x) with
  | some h => if s.canHalt then s.haltHere h x else s
  | none => s

/-- LAST_FACE_STOPPED: once the last Face has finished its final tick, HALTING ends (R221). -/
def execLastFaceStopped (s : State) : Result :=
  if s.tk.haltTaken && !s.anyRunning then .next (s.endHalt s.tk.haltTick.toNat) else .next s

/-! ### Step 3: commits (R215, R326) -/

def State.takeCommits (s : State) : State :=
  let x := s.tk.tickCount.toNat
  let due := s.sched.commits.filter fun c => c.at_ == x
  let s1 : State := { s with sched := { s.sched with commits := s.sched.commits.filter fun c => c.at_ != x } }
  due.foldl (fun s c => (s.applyCommit c.entries).finish c.tkt .ok (leBytes 4 c.entries.length)) s1

/-! ### Step 9: LAUNCH (R63, R91, R180, R219) -/

/-- A Face at the boundary at which LAUNCH takes effect. -/
def Face.launch (x : Face) : Face :=
  { x with
    running := false, slip := 0, stall := none, held := [], tickBanks := []
    units := { x.units with
      loaded := false, setA := QuireSet.empty, setB := QuireSet.empty, pipe := [], queue := [], carry := [], carryUe := [], carrySeen := [] } }

/-- Step 9. -/
def State.takeLaunch (s : State) : State :=
  match s.sched.launch with
  | some l =>
    if s.tk.run = .armed ∧ l.at_ = s.tk.tickCount.toNat then
      let s1 : State := { s with
        tk := { s.tk.unpaced with
          run := if s.sched.halts.isEmpty then .running else .halting
          launchAt := s.tk.tickCount, odcModule := 0 }
        twin := s.twin.newRun
        sched := { s.sched with launch := none, exts := [] }
        faces := s.faces.map Face.launch }
      s1.finish l.tkt .ok []
    else s
  | none => s

/-! ### Step 11: programs (R222) -/

/-- The Pit runs after step 2. -/
def State.runsOn (s : State) : Bool := s.running && !s.tk.haltTaken

/-- A program that places work on a Face in service. -/
def Face.hasWork (x : Face) : Bool := x.state.inService && (match x.prog with | some p => p.used | none => false)

/-- A Face starts its program, or slips by one more tick, with the table bank that is active in the new tick (R141, R222). -/
def Face.start (x : Face) : Face :=
  if !x.hasWork then x
  else
    let slip := if x.running then x.slip + 1 else 0
    let bank := (x.units.banks.active, x.units.banks.live)
    { x with running := true, slip := slip, tickBanks := (bank :: x.tickBanks).take (slip + 1) }

/-- After a halt's boundary a Face that still runs slips by one more tick and starts none. -/
def Face.linger (x : Face) : Face := if x.running then x.start else x

/-- Steps 10 and 11, for a Pit that runs: lifts, the collectives' reservation, programs. -/
def State.startTick (s : State) : State :=
  if s.runsOn then
    let s1 := s.fillLifts.fillReservation
    { s1 with faces := s1.faces.map Face.start }
  else if s.tk.haltTaken then { s with faces := s.faces.map Face.linger }
  else s

/-! ### TICK_BOUNDARY (R214) -/

/-- Steps 1 to 5. -/
def State.boundaryEarly (s : State) : State := s.enterTick.takeHalt.takeCommits.takeEpoch.takeSwaps.takeUnpair

/-- Steps 6 to 11. -/
def State.boundaryLate (s : State) (ran : Bool) : State :=
  ((s.fixExt.showMessages.sendDigest ran).twinCompare.takeLaunch.streamBoundary).startTick

/-- The boundary with its trace record (R332); then the Derrick goes on. -/
def State.boundary (s : State) : State :=
  let s1 := s.boundaryEarly.boundaryLate s.running
  (s1.trace 0 0x0001 [s1.runState]).pump

def execTickBoundary (s : State) : Result := .next (if s.pwr.hub then s.boundary else s)

end Sys2Proof.Machine
end

