-- ==== Sys2Proof/Machine/Dispatch.lean ====
section
/-! DEFINITION. The meaning of each command, by constructor. -/

namespace Sys2Proof.Machine

def exec (i : Instr) (s : State) : Host.Outcome State Fault Refusal :=
  match i with
  | .cfgRead pk => Sys2Proof.Machine.execCfgRead pk s
  | .cfgStage pk => Sys2Proof.Machine.execCfgStage pk s
  | .cfgCommit pk => Sys2Proof.Machine.execCfgCommit pk s
  | .progLoad pk => Sys2Proof.Machine.execProgLoad pk s
  | .progVerify pk => Sys2Proof.Machine.execProgVerify pk s
  | .launch pk => Sys2Proof.Machine.execLaunch pk s
  | .haltAt pk => Sys2Proof.Machine.execHaltAt pk s
  | .lastFaceStopped => Sys2Proof.Machine.execLastFaceStopped s
  | .epochBegin c => Sys2Proof.Machine.execEpochBegin c s
  | .epochClockLock => Sys2Proof.Machine.execEpochClockLock s
  | .streamOpen pk => Sys2Proof.Machine.execStreamOpen pk s
  | .streamChunk pk => Sys2Proof.Machine.execStreamChunk pk s
  | .streamPause pk => Sys2Proof.Machine.execStreamPause pk s
  | .streamResume pk => Sys2Proof.Machine.execStreamResume pk s
  | .streamExport pk => Sys2Proof.Machine.execStreamExport pk s
  | .exportSnapshot h => Sys2Proof.Machine.execExportSnapshot h s
  | .exportWriteDone h remote => Sys2Proof.Machine.execExportWriteDone h remote s
  | .streamImport pk => Sys2Proof.Machine.execStreamImport pk s
  | .streamClose pk => Sys2Proof.Machine.execStreamClose pk s
  | .streamQuery pk => Sys2Proof.Machine.execStreamQuery pk s
  | .chunkComplete h carry outs => Sys2Proof.Machine.execChunkComplete h carry outs s
  | .streamRecordLanding src pit tag addr len => Sys2Proof.Machine.execStreamRecordLanding src pit tag addr len s
  | .collBucketDef pk => Sys2Proof.Machine.execCollBucketDef pk s
  | .collArm pk => Sys2Proof.Machine.execCollArm pk s
  | .collQuery pk => Sys2Proof.Machine.execCollQuery pk s
  | .addingHop bucket half => Sys2Proof.Machine.execAddingHop bucket half s
  | .collPassEnd bucket => Sys2Proof.Machine.execCollPassEnd bucket s
  | .collStepTimeout bucket => Sys2Proof.Machine.execCollStepTimeout bucket s
  | .tableLoad pk => Sys2Proof.Machine.execTableLoad pk s
  | .tableLoadDone key failed => Sys2Proof.Machine.execTableLoadDone key failed s
  | .tableSwap pk => Sys2Proof.Machine.execTableSwap pk s
  | .tableQuery pk => Sys2Proof.Machine.execTableQuery pk s
  | .memCopy pk => Sys2Proof.Machine.execMemCopy pk s
  | .memFill pk => Sys2Proof.Machine.execMemFill pk s
  | .memScrub pk => Sys2Proof.Machine.execMemScrub pk s
  | .memCommandDone key => Sys2Proof.Machine.execMemCommandDone key s
  | .memRetire pk => Sys2Proof.Machine.execMemRetire pk s
  | .hbmZeroingDone => Sys2Proof.Machine.execHbmZeroingDone s
  | .readyQuery pk => Sys2Proof.Machine.execReadyQuery pk s
  | .bistRun pk => Sys2Proof.Machine.execBistRun pk s
  | .bistDone key res => Sys2Proof.Machine.execBistDone key res s
  | .faceRetire pk => Sys2Proof.Machine.execFaceRetire pk s
  | .fwPiece pk => Sys2Proof.Machine.execFwPiece pk s
  | .fwStatus pk => Sys2Proof.Machine.execFwStatus pk s
  | .fwConfirm pk => Sys2Proof.Machine.execFwConfirm pk s
  | .fwRelayEnable pk => Sys2Proof.Machine.execFwRelayEnable pk s
  | .twinPair c => Sys2Proof.Machine.execTwinPair c s
  | .twinUnpair pk => Sys2Proof.Machine.execTwinUnpair pk s
  | .errRead pk => Sys2Proof.Machine.execErrRead pk s
  | .errAck pk => Sys2Proof.Machine.execErrAck pk s
  | .pitCreate pk => Sys2Proof.Machine.execPitCreate pk s
  | .pitDestroy pk => Sys2Proof.Machine.execPitDestroy pk s
  | .pitScrubDone bad => Sys2Proof.Machine.execPitScrubDone bad s
  | .routeEpoch pk => Sys2Proof.Machine.execRouteEpoch pk s
  | .tickBoundary => Sys2Proof.Machine.execTickBoundary s
  | .faceProgramEnd f endCycle => Sys2Proof.Machine.execFaceProgramEnd f endCycle s
  | .faceSlipLimit f => Sys2Proof.Machine.execFaceSlipLimit f s
  | .faceStallEnd f => Sys2Proof.Machine.execFaceStallEnd f s
  | .odcPitUpdate others => Sys2Proof.Machine.execOdcPitUpdate others s
  | .benchForwardRead f op => Sys2Proof.Machine.execBenchForwardRead f op s
  | .benchTransposedRead f op => Sys2Proof.Machine.execBenchTransposedRead f op s
  | .weightLoad f op => Sys2Proof.Machine.execWeightLoad f op s
  | .weightSwap f => Sys2Proof.Machine.execWeightSwap f s
  | .drain f op => Sys2Proof.Machine.execDrain f op s
  | .finishedTileQueued f => Sys2Proof.Machine.execFinishedTileQueued f s
  | .keeperMac f groups => Sys2Proof.Machine.execKeeperMac f groups s
  | .add f op => Sys2Proof.Machine.execAdd f op s
  | .sub f op => Sys2Proof.Machine.execSub f op s
  | .mul f op => Sys2Proof.Machine.execMul f op s
  | .muladd f op => Sys2Proof.Machine.execMuladd f op s
  | .max f op => Sys2Proof.Machine.execMax f op s
  | .min f op => Sys2Proof.Machine.execMin f op s
  | .abs f op => Sys2Proof.Machine.execAbs f op s
  | .neg f op => Sys2Proof.Machine.execNeg f op s
  | .cmpEq f op => Sys2Proof.Machine.execCmpEq f op s
  | .cmpLt f op => Sys2Proof.Machine.execCmpLt f op s
  | .cmpLe f op => Sys2Proof.Machine.execCmpLe f op s
  | .select f op => Sys2Proof.Machine.execSelect f op s
  | .div f op => Sys2Proof.Machine.execDiv f op s
  | .sqrt f op => Sys2Proof.Machine.execSqrt f op s
  | .convert f op => Sys2Proof.Machine.execConvert f op s
  | .quant f op => Sys2Proof.Machine.execQuant f op s
  | .intFinish f op => Sys2Proof.Machine.execIntFinish f op s
  | .sum f op => Sys2Proof.Machine.execSum f op s
  | .maxr f op => Sys2Proof.Machine.execMaxr f op s
  | .minr f op => Sys2Proof.Machine.execMinr f op s
  | .compress f op => Sys2Proof.Machine.execCompress f op s
  | .expand f op => Sys2Proof.Machine.execExpand f op s
  | .qadd f op => Sys2Proof.Machine.execQadd f op s
  | .tswTest f op => Sys2Proof.Machine.execTswTest f op s
  | .spallClear f list => Sys2Proof.Machine.execSpallClear f list s
  | .fnExp2 f op => Sys2Proof.Machine.execFnExp2 f op s
  | .fnLog2 f op => Sys2Proof.Machine.execFnLog2 f op s
  | .fnTab f slot op => Sys2Proof.Machine.execFnTab f slot op s
  | .fnGate f op => Sys2Proof.Machine.execFnGate f op s
  | .smax1 f op => Sys2Proof.Machine.execSmax1 f op s
  | .smax2 f op => Sys2Proof.Machine.execSmax2 f op s
  | .normStats f op => Sys2Proof.Machine.execNormStats f op s
  | .normApply f op => Sys2Proof.Machine.execNormApply f op s
  | .normGrad1 f op => Sys2Proof.Machine.execNormGrad1 f op s
  | .normGrad2 f op => Sys2Proof.Machine.execNormGrad2 f op s
  | .smaxGrad1 f op => Sys2Proof.Machine.execSmaxGrad1 f op s
  | .smaxGrad2 f op => Sys2Proof.Machine.execSmaxGrad2 f op s
  | .gsScan f op => Sys2Proof.Machine.execGsScan f op s
  | .collFill f bucket => Sys2Proof.Machine.execCollFill f bucket s
  | .fabricSend f op => Sys2Proof.Machine.execFabricSend f op s
  | .atomicAdd f op => Sys2Proof.Machine.execAtomicAdd f op s
  | .moverTransfer f op => Sys2Proof.Machine.execMoverTransfer f op s
  | .addContribution pkt => Sys2Proof.Machine.execAddContribution pkt s
  | .addGroupComplete target => Sys2Proof.Machine.execAddGroupComplete target s
  | .refreshSlot d => Sys2Proof.Machine.execRefreshSlot d s
  | .patrolScrub addr => Sys2Proof.Machine.execPatrolScrub addr s
  | .stackErrorLimit m => Sys2Proof.Machine.execStackErrorLimit m s
  | .flitReceive p flit fecOk => Sys2Proof.Machine.execFlitReceive p flit fecOk s
  | .linkFail p alignment => Sys2Proof.Machine.execLinkFail p alignment s
  | .linkRetrainTimer p => Sys2Proof.Machine.execLinkRetrainTimer p s
  | .linkSignalDetect p => Sys2Proof.Machine.execLinkSignalDetect p s
  | .linkSignalLoss p => Sys2Proof.Machine.execLinkSignalLoss p s
  | .linkTrained p => Sys2Proof.Machine.execLinkTrained p s
  | .helloTimer p => Sys2Proof.Machine.execHelloTimer p s
  | .hello p bytes => Sys2Proof.Machine.execHello p bytes s
  | .packetRoute src pkt => Sys2Proof.Machine.execPacketRoute src pkt s
  | .landingWrite pkt => Sys2Proof.Machine.execLandingWrite pkt s
  | .commandPacket pkt => Sys2Proof.Machine.execCommandPacket pkt s
  | .replyPacket pkt => Sys2Proof.Machine.execReplyPacket pkt s
  | .collectiveSegment pkt => Sys2Proof.Machine.execCollectiveSegment pkt s
  | .haltNotice pkt => Sys2Proof.Machine.execHaltNotice pkt s
  | .extensionAnnouncement pkt => Sys2Proof.Machine.execExtensionAnnouncement pkt s
  | .twinDigest pkt => Sys2Proof.Machine.execTwinDigest pkt s
  | .powerEvent src pit => Sys2Proof.Machine.execPowerEvent src pit s
  | .management p pkt => Sys2Proof.Machine.execManagement p pkt s
  | .frameBoundary clock => Sys2Proof.Machine.execFrameBoundary clock s
  | .frameMarker p mk => Sys2Proof.Machine.execFrameMarker p mk s
  | .timebaseLock => Sys2Proof.Machine.execTimebaseLock s
  | .errorRecord => Sys2Proof.Machine.execErrorRecord s
  | .faceCheckerFault f unit => Sys2Proof.Machine.execFaceCheckerFault f unit s
  | .weighbridgeBoot flashOk => Sys2Proof.Machine.execWeighbridgeBoot flashOk s
  | .mainEnable vMain vStby inlet => Sys2Proof.Machine.execMainEnable vMain vStby inlet s
  | .mainRampDone => Sys2Proof.Machine.execMainRampDone s
  | .hubStartDone => Sys2Proof.Machine.execHubStartDone s
  | .dieStartDone => Sys2Proof.Machine.execDieStartDone s
  | .powerOnBistDone res => Sys2Proof.Machine.execPowerOnBistDone res s
  | .hbmTrainingDone m ok => Sys2Proof.Machine.execHbmTrainingDone m ok s
  | .perstNRelease => Sys2Proof.Machine.execPerstNRelease s
  | .pcieLinkUp => Sys2Proof.Machine.execPcieLinkUp s
  | .bulkLowDetect vMain => Sys2Proof.Machine.execBulkLowDetect vMain s
  | .regulatorStop => Sys2Proof.Machine.execRegulatorStop s
  | .sagClear => Sys2Proof.Machine.execSagClear s
  | .mainInputRestore => Sys2Proof.Machine.execMainInputRestore s
  | .overcurrent vNode => Sys2Proof.Machine.execOvercurrent vNode s
  | .highInput => Sys2Proof.Machine.execHighInput s
  | .highInputEnd => Sys2Proof.Machine.execHighInputEnd s
  | .standbyLow vMain => Sys2Proof.Machine.execStandbyLow vMain s
  | .standbyLowStopTimer => Sys2Proof.Machine.execStandbyLowStopTimer s
  | .mainPowerLoss => Sys2Proof.Machine.execMainPowerLoss s
  | .sensorPoll r => Sys2Proof.Machine.execSensorPoll r s
  | .thermalHaltPersist sensor reading => Sys2Proof.Machine.execThermalHaltPersist sensor reading s
  | .thermalStopTimer => Sys2Proof.Machine.execThermalStopTimer s
  | .leakDetect own => Sys2Proof.Machine.execLeakDetect own s
  | .leakStopTimer => Sys2Proof.Machine.execLeakStopTimer s
  | .leakClearTimer => Sys2Proof.Machine.execLeakClearTimer s
  | .mgmtDatagram sender bytes => Sys2Proof.Machine.execMgmtDatagram sender bytes s
  | .fwDatagram bytes => Sys2Proof.Machine.execFwDatagram bytes s
  | .fwRelayPiece bytes => Sys2Proof.Machine.execFwRelayPiece bytes s
  | .opMinTick => Sys2Proof.Machine.execOpMinTick s
  | .enumerationTrain pulses => Sys2Proof.Machine.execEnumerationTrain pulses s
  | .chainEnumTimeout => Sys2Proof.Machine.execChainEnumTimeout s
  | .sqDoorbell q tail => Sys2Proof.Machine.execSqDoorbell q tail s
  | .cqDoorbell q head => Sys2Proof.Machine.execCqDoorbell q head s
  | .queueEnable q enable => Sys2Proof.Machine.execQueueEnable q enable s
  | .csrWrite path off size value => Sys2Proof.Machine.execCsrWrite path off size value s
  | .bar4Access off acc => Sys2Proof.Machine.execBar4Access off acc s
  | .convCntCtlClear => Sys2Proof.Machine.execConvCntCtlClear s
  | .spallCntCtlClear => Sys2Proof.Machine.execSpallCntCtlClear s
  | .fnCntCtlClear => Sys2Proof.Machine.execFnCntCtlClear s
  | .slackClear => Sys2Proof.Machine.execSlackClear s
  | .tickEv on => Sys2Proof.Machine.execTickEv on s
  | .cmdEv on => Sys2Proof.Machine.execCmdEv on s
  | .fabEv on => Sys2Proof.Machine.execFabEv on s
  | .errEv on => Sys2Proof.Machine.execErrEv on s
  | .standbyPowerLoss => Sys2Proof.Machine.execStandbyPowerLoss s
  | .pcieLinkDown => Sys2Proof.Machine.execPcieLinkDown s
  | .queuePcieError q => Sys2Proof.Machine.execQueuePcieError q s
  | .flitSlot p slot => Sys2Proof.Machine.execFlitSlot p slot s

end Sys2Proof.Machine
end

