-- ==== Sys2Proof/Safety.lean ====
section
/-! DEFINITION. What counts as a safe state, and the terms in which the claims say when a command is taken and has its effect. -/

namespace Sys2Proof.Machine

/-! ### The invariant -/

/-- The lists that hold memory are in their canonical form, device memory and the host memory that the module reaches (log entry 2),
and no Face, repair record, queue pair or Haul port is added or lost (R9, R93, R315). -/
def State.wf (s : State) : Bool :=
  Memory.wf s.mem && swf (0 : Byte) s.host.hostMem && s.faces.length == 96 && s.flash.repairs.length == 96 && s.host.queues.length == 64
    && s.fab.ports.length == 6

/-! ### When the Derrick takes a command packet (R315 to R320) -/

/-- The table's row of an opcode; what the exchange with other modules tells comes with two of them (R26, R234). -/
def Op.row (o : Op) (pk : CmdPacket) (plans : List (BitVec 2)) (partner : Option Peer) : Instr :=
  match o with
  | .cfgRead => .cfgRead pk
  | .cfgStage => .cfgStage pk
  | .cfgCommit => .cfgCommit pk
  | .progLoad => .progLoad pk
  | .progVerify => .progVerify pk
  | .launch => .launch pk
  | .haltAt => .haltAt pk
  | .epochBegin => .epochBegin ⟨pk, plans⟩
  | .streamOpen => .streamOpen pk
  | .streamChunk => .streamChunk pk
  | .streamPause => .streamPause pk
  | .streamResume => .streamResume pk
  | .streamExport => .streamExport pk
  | .streamImport => .streamImport pk
  | .streamClose => .streamClose pk
  | .streamQuery => .streamQuery pk
  | .collBucketDef => .collBucketDef pk
  | .collArm => .collArm pk
  | .collQuery => .collQuery pk
  | .tableLoad => .tableLoad pk
  | .tableSwap => .tableSwap pk
  | .tableQuery => .tableQuery pk
  | .memCopy => .memCopy pk
  | .memFill => .memFill pk
  | .memScrub => .memScrub pk
  | .memRetire => .memRetire pk
  | .readyQuery => .readyQuery pk
  | .bistRun => .bistRun pk
  | .faceRetire => .faceRetire pk
  | .fwPiece => .fwPiece pk
  | .fwStatus => .fwStatus pk
  | .fwConfirm => .fwConfirm pk
  | .fwRelayEnable => .fwRelayEnable pk
  | .twinPair => .twinPair ⟨pk, partner⟩
  | .twinUnpair => .twinUnpair pk
  | .errRead => .errRead pk
  | .errAck => .errAck pk
  | .pitCreate => .pitCreate pk
  | .pitDestroy => .pitDestroy pk
  | .routeEpoch => .routeEpoch pk

/-- The state in which a row's packet arrives: with what its row tells of other modules. -/
def State.told (s : State) (o : Op) (plans : List (BitVec 2)) (partner : Option Peer) : State :=
  match o with
  | .epochBegin => { s with pit := { s.pit with plans := plans } }
  | .twinPair => { s with twin := { s.twin with heard := partner } }
  | _ => s

/-- A command comes off its queue pair; on the other paths nothing is queued. -/
def State.popped (s : State) (pk : CmdPacket) : State :=
  match pk.path with
  | .queue q => s.updQueue q fun x => x.push.pop
  | _ => s

/-- The path gives the packet to the Derrick, or over the management Ethernet to the Weighbridge while the Derrick is down. -/
def State.open_ (s : State) (o : Op) (pk : CmdPacket) : Bool :=
  let go := s.mayCheck ⟨(opInfo o).code, pk⟩
  let next := go && !s.host.waiting.any fun v => samePath v.2.path pk.path
  match pk.path with
  | .queue q => s.served q && (s.queue q).drained && go
  | .mgmt _ => s.pwr.weighbridge && ((s.pwr.derrick && next) || (!s.pwr.derrick && weighbridgeOp o))
  | .fabric _ => s.pwr.derrick && next

/-- The packet is checked at once, and steps 1 to 7 of R320 refuse nothing. -/
def State.takes (s : State) (o : Op) (pk : CmdPacket) : Bool :=
  s.open_ o pk && (formChecks (opInfo o).code (some o) pk).isNone && (packetChecks (s.popped pk) o pk).isNone

/-- The ticket of a command that is accepted now. -/
def State.ticket (s : State) (pk : CmdPacket) : Ticket := ⟨cmdKey pk, s.tick32⟩

/-- A final OK reply in the acceptance tick, after the trace record of the acceptance (R332). -/
def State.okNow (s : State) (o : Op) (pk : CmdPacket) (payload : List Byte) : State :=
  (s.noteAccepted (opInfo o).code pk).replyNow (cmdKey pk) .ok payload

/-- The command is outstanding, its acceptance traced, and PEND has its first reply (R319, R332). -/
def State.outstandingNow (s : State) (o : Op) (t : Ticket) (pk : CmdPacket) : State :=
  let s1 := ({ s with host := { s.host with outstanding := s.host.outstanding ++ [t] } } : State).noteAccepted (opInfo o).code pk
  if cmdPend pk then s1.pendingReply pk else s1

/-! ### When an opcode's own rules accept: `s` is the state in which they are met -/

def cfgReadGoes (s : State) (pk : CmdPacket) : Bool :=
  decide (cmdArg pk 0 8 % 8 = 0) && decide (1 ≤ cmdArg pk 8 2 ∧ cmdArg pk 8 2 ≤ 256) && decide (cmdArg pk 10 1 < 2) && cmdZero pk 11 21
    && (s.pwr.hub || !hubRegisters (cmdArg pk 0 8) (cmdArg pk 8 2))

def cfgStageGoes (s : State) (pk : CmdPacket) : Bool :=
  let es := stageEntries pk
  ((List.range es.length).all fun i => cmdZero pk (32 * i + 24) 8) && es.all StageEntry.maskOk && es.all StageEntry.offOk
    && (valuesRefusal s s.sched.staging 0 es).isNone
    && (!(es.any StageEntry.lk) || s.tk.run == .stopped) && (!(es.any StageEntry.slotK) || !s.streamsOpen)
    && decide ((es.foldl stageOne s.sched.staging).length ≤ 1024)

def cfgCommitGoes (s : State) : Bool :=
  let l := s.sched.staging
  (commitRefusal s l).isNone && (!(l.any StageEntry.lk) || s.tk.run == .stopped)
    && (s.csrStaged l 0x0040 == s.csr64 0x0040 || s.pit.id == 0) && (!(l.any StageEntry.slotK) || !s.streamsOpen)

/-- The image of PROG_LOAD and PROG_VERIFY, and the state once it is read. -/
def State.imageOf (s : State) (pk : CmdPacket) : List Byte := s.mem.bytes (cmdArg pk 0 8) (cmdArg pk 8 4)
def State.imageRead (s : State) (pk : CmdPacket) : State := s.noteReads .hub [(cmdArg pk 0 8, cmdArg pk 8 4)]

def programGoes (s : State) (pk : CmdPacket) : Bool :=
  let a := cmdArg pk 0 8
  let n := cmdArg pk 8 4
  let img := s.imageOf pk
  let s1 := s.imageRead pk
  decide (64 ≤ n) && cmdZero pk 12 4 && cmdZero pk 24 8 && s.mem.rangeOk a n && (s.mem.markedIn a n).isEmpty
    && (crc64 img).toNat == cmdArg pk 16 8 && leAt img 0 1 == 0x20 && (s1.progCheck img (targetFaces pk.target)).isNone
    && s1.tk.run == .stopped && !s1.training && (targetFaces pk.target).all fun f => (s1.face f).state.inService

def launchGoes (s : State) (pk : CmdPacket) : Bool :=
  (s.faces.all fun x => match x.prog with | some p => decide (cmdArg pk 0 4 < p.entries) | none => true) && cmdZero pk 4 28
    && !(pk.execAt == 0 && decide (1 < s.pitSize)) && s.launchMismatch.isNone && s.tk.run == .stopped && s.sched.epoch.isNone && s.sched.clockLock.isNone
    && !s.mem.zeroing && !s.training && !(s.sched.commits.any fun c => c.entries.any StageEntry.lk)

def epochBeginGoes (s : State) (pk : CmdPacket) : Bool :=
  (epochCheck (s.afterCommits (actTick s pk))).isNone && s.sched.epoch.isNone && s.sched.clockLock.isNone

def routeEpochGoes (s : State) (pk : CmdPacket) : Bool :=
  let a := cmdArg pk 0 8
  let b := s.mem.bytes a routeLength
  decide (cmdArg pk 8 4 = routeLength) && cmdZero pk 12 20 && s.mem.cmdRangeOk a routeLength && (s.mem.markedIn a routeLength).isEmpty
    && leAt b 0 1 == 0x20 && leNat ((b.drop 60).take 4) == (crc32c (b.take 60 ++ zeros 4 ++ b.drop 64)).toNat
    && ((s.noteReads .hub [(a, routeLength)]).routeFault b).isNone

/-- The route image of ROUTE_EPOCH's artefact (R270). -/
def routeImageOf (b : List Byte) : RouteImage :=
  ⟨BitVec.ofNat 32 (leAt b 4 4), BitVec.ofNat 8 (leAt b 8 1), (b.drop 64).take 32768, b.drop (64 + 32768)⟩

def tableLoadGoes (s : State) (pk : CmdPacket) : Bool :=
  let a := cmdArg pk 0 8
  let n := cmdArg pk 8 4
  let slot := cmdArg pk 12 1
  let fl := cmdArg pk 13 1
  let img := s.mem.bytes a n
  let s1 := s.noteReads .hub [(a, n)]
  let t := tableOf img
  let fs := targetFaces pk.target
  decide (64 ≤ n ∧ n ≤ 32832) && decide (slot < 8) && decide (fl < 8) && cmdZero pk 14 18 && s.mem.cmdRangeOk a n
    && (s.mem.markedIn a n).isEmpty && leAt img 0 1 == 0x20 && leAt img 60 4 == (crc32c (img.take 60 ++ zeros 4 ++ img.drop 64)).toNat
    && (tableFault img t).isNone && t.monoFault.isNone
    && fs.all fun f =>
      t.evalCz1 == (if bit fl 1 then bit fl 2 else ((s1.banks f).bankOf (bit fl 0)).cz1)
        && decide ((if bit fl 1 then 0 else ((s1.banks f).bankOf (bit fl 0)).used slot) + t.entries.length ≤ 4096)
        && (s1.banks f).active != bit fl 0 && (s1.banks f).swapAt.isNone && !(s1.banks f).loadPending && (s1.face f).state.inService

def tableSwapGoes (s : State) (pk : CmdPacket) : Bool :=
  let fs := targetFaces pk.target
  s.swapAgrees fs && fs.all fun f =>
    (s.banks f).shadowValid && !(s.banks f).loadPending && (s.banks f).swapAt.isNone && (s.face f).state.inService

def memCopyGoes (s : State) (pk : CmdPacket) : Bool :=
  let fl := cmdArg pk 24 1
  decide (cmdArg pk 0 8 % 64 = 0) && decide (cmdArg pk 8 8 % 64 = 0) && decide (cmdArg pk 16 8 % 64 = 0) && decide (fl < 4)
    && cmdZero pk 25 7 && (bit fl 0 || s.memRangeOk (cmdArg pk 0 8) (cmdArg pk 16 8))
    && (bit fl 1 || s.memWriteOk (cmdArg pk 8 8) (cmdArg pk 16 8))

def memFillGoes (s : State) (pk : CmdPacket) : Bool :=
  decide (cmdArg pk 0 8 % 64 = 0) && decide (cmdArg pk 8 8 % 64 = 0) && cmdZero pk 24 8 && s.memWriteOk (cmdArg pk 0 8) (cmdArg pk 8 8)

def memScrubGoes (s : State) (pk : CmdPacket) : Bool :=
  decide (cmdArg pk 0 8 % 64 = 0) && decide (cmdArg pk 8 8 % 64 = 0) && cmdZero pk 16 16 && s.memWriteOk (cmdArg pk 0 8) (cmdArg pk 8 8)

def bistRunGoes (s : State) (pk : CmdPacket) : Bool :=
  let kind := cmdArg pk 0 1
  let idx := cmdArg pk 1 1
  decide (kind < 4) && (!(kind == 1) || decide (idx < 16)) && (!(kind == 2) || decide (idx < 6)) && cmdZero pk 2 30
    && (!(kind == 0) || (targetFaces pk.target).all fun f => (s.face f).state != .retired)
    && (!(kind == 0 || kind == 1) || s.tk.run == .stopped) && (!(kind == 2) || (s.portAt idx).state == .disabled)
    && (!(kind == 3) || s.pit.id == 0)

def errReadGoes (s : State) (pk : CmdPacket) : Bool :=
  let src := cmdArg pk 0 1
  decide (src ≤ 2) && (decide (src < 2) || (decide (1 ≤ cmdArg pk 1 1) && decide (cmdArg pk 1 1 ≤ 63))) && cmdZero pk 2 2
    && (decide (src < 2) || !s.errs.older (cmdArg pk 4 4)) && cmdZero pk 8 24

def errAckGoes (s : State) (pk : CmdPacket) : Bool :=
  (match s.errs.primary with | some l => l.seq == cmdArg pk 0 8 | none => false) && cmdZero pk 8 24

def pitCreateGoes (s : State) (pk : CmdPacket) : Bool :=
  let p := pitOf s pk
  cmdPit pk != 0 && decide (cmdArg pk 0 2 < 2 ^ 15) && cmdZero pk 5 3 && cmdZero pk 24 8
    && decide (coord p.corner 0 < s.dim 0 ∧ coord p.corner 1 < s.dim 1 ∧ coord p.corner 2 < s.dim 2)
    && decide (cmdArg pk 2 1 < s.dim 0) && decide (cmdArg pk 3 1 < s.dim 1) && decide (cmdArg pk 4 1 < s.dim 2)
    && ({ s with pit := p } : State).inBlock s.fab.faddr && s.pit.scrub.isNone
    && !(s.pit.left.any fun l => l.1 == p.id && decide (s.tk.localFrame < l.2 + 2048))

/-- The stream that a command's TARGET and header name (R186). -/
def State.named (s : State) (pk : CmdPacket) (e : StreamEnt) : Bool :=
  (s.strm.ents.find? fun x => x.handle == pk.target.setWidth 16 && !x.closing) == some e
    && e.incarn == BitVec.ofNat 32 (bits pk.target.toNat 47 16) && e.pit == cmdPit pk

def streamOpenGoes (s : State) (pk : CmdPacket) : Bool :=
  let cell := (cmdParams pk).take 32
  let c := cmdArg pk 32 4
  let i := cmdArg pk 36 4
  leAt cell 0 1 == 0x20 && (cellFault cell).isNone && decide (cmdArg pk 49 1 < 2) && cmdZero pk 50 14
    && decide (c % 64 = 0 ∧ c + i ≤ 2 ^ 26) && i == (if cellZeroInit cell then 0 else c)
    && (cellZeroInit cell || i == 0 || s.mem.rangeOk (cmdArg pk 40 8) i)
    && (cmdArg pk 49 1 == 0 || decide (cmdArg pk 48 1 ≤ cellLmax cell)) && !s.slotKWaits

/-- The entry that STREAM_OPEN gives a new stream, but for its incarnation and Pit (R193). -/
def openedStream (pk : CmdPacket) (h : BitVec 16) (spill : Option DevAddr) : StreamEnt :=
  { blankStream h spill ((cmdParams pk).take 32) (cmdArg pk 32 4) (cmdArg pk 36 4) with
    svcL := BitVec.ofNat 8 (cmdArg pk 48 1), svcValid := cmdArg pk 49 1 == 1 }

/-- Memory once a new stream's carried state holds zeros, or a copy of the initial state that is kept beside it (R193). -/
def State.openedState (s : State) (pk : CmdPacket) (e : StreamEnt) : State :=
  let s1 : State := { s with mem := s.mem.scrub e.addr (cmdArg pk 32 4) }
  if cellZeroInit ((cmdParams pk).take 32) then s1
  else (s1.copyMem .hub (cmdArg pk 40 8) e.addr (cmdArg pk 36 4)).copyMem .hub (cmdArg pk 40 8) (e.addr + cmdArg pk 32 4) (cmdArg pk 36 4)

/-- The chunks that a STREAM_CHUNK asks for (R195, R199). -/
def chunksAsked (pk : CmdPacket) (e : StreamEnt) : List Chunk :=
  (if bit (cmdArg pk 2 1) 1 then cutsOf (cmdArg pk 4 4) 0 (cmdArg pk 4 4) (e.svcL.toNat + 1) else [(0, cmdArg pk 1 1 + 1)]).map (chunkOf pk e)

def streamExportGoes (s : State) (pk : CmdPacket) (e : StreamEnt) : Bool :=
  let dest := cmdArg pk 0 8
  let n := 96 + e.carryBytes + e.initBytes
  let remote := cmdArg pk 10 1 == 1
  pk.execAt == 0 && decide (dest % 64 = 0) && decide (cmdArg pk 8 2 < 2 ^ 15) && decide (cmdArg pk 10 1 < 2) && cmdZero pk 11 21
    && (remote || (s.mem.rangeOk dest n && !touchesFixed s.strm.slotK.toNat dest n))
    && (!remote || s.inBlock (BitVec.ofNat 15 (cmdArg pk 8 2))) && e.state != .exporting

/-- The export that waits for its snapshot (R201). -/
def State.newExport (s : State) (pk : CmdPacket) (t : Ticket) : Export :=
  ⟨t, s.tk.tickCount.toNat, BitVec.ofNat 64 (cmdArg pk 0 8), BitVec.ofNat 15 (cmdArg pk 8 2), cmdArg pk 10 1 == 1, none, 0, none, false⟩

/-- The bytes of an import's record. -/
def State.recordAt (s : State) (pk : CmdPacket) : List Byte :=
  let a := cmdArg pk 0 8
  s.mem.bytes a (96 + s.mem.nat (a + 4) 4 + s.mem.nat (a + 8) 4)

def streamImportGoes (s : State) (pk : CmdPacket) : Bool :=
  let a := cmdArg pk 0 8
  let cell := ((cmdParams pk).drop 32).take 32
  let c := s.mem.nat (a + 4) 4
  let i := s.mem.nat (a + 8) 4
  decide (a % 64 = 0) && decide (cmdArg pk 8 1 < 2) && cmdZero pk 9 23 && leAt cell 0 1 == 0x20 && (cellFault cell).isNone
    && s.mem.cmdRangeOk a 64 && sizesOk c i && s.mem.cmdRangeOk a (96 + c + i) && (s.mem.markedIn a (96 + c + i)).isEmpty
    && (importRefusal (s.noteReads .hub [(a, 96 + c + i)]) pk (s.recordAt pk) true).isNone

/-- The 64 KiB piece that an FW_PIECE names: the whole piece buffer, or device memory (R356). -/
def State.pieceOf (s : State) (pk : CmdPacket) : List Byte :=
  match pk.path with
  | .mgmt _ =>
    match s.fw.bufs.find? fun x => x.id.toNat == cmdArg pk 0 4 && x.piece.toNat == cmdArg pk 4 4 with
    | some x => x.whole
    | none => []
  | _ => s.mem.bytes (cmdArg pk 16 8) pieceLen

/-- The state once the piece is read. -/
def State.pieceRead (s : State) (pk : CmdPacket) : State :=
  match pk.path with
  | .mgmt _ => s
  | _ => s.noteReads .hub [(cmdArg pk 16 8, pieceLen)]

/-- The piece is at hand, agrees with the parameters and is well formed (R354 to R356). -/
def fwPieceGoes (s : State) (pk : CmdPacket) : Bool :=
  let src := cmdArg pk 16 8
  let b := s.pieceOf pk
  let h := pieceHead b
  cmdZero pk 13 3 && cmdZero pk 24 8
    && (match pk.path with
      | .mgmt _ => src == 0 && (match s.fw.bufs.find? fun x => x.id.toNat == cmdArg pk 0 4 && x.piece.toNat == cmdArg pk 4 4 with
          | some x => x.missing == 0
          | none => false)
      | _ => decide (src % 64 = 0) && s.mem.cmdRangeOk src pieceLen && (s.mem.markedIn src pieceLen).isEmpty)
    && cmdArg pk 0 4 == h.id && cmdArg pk 4 4 == h.idx && cmdArg pk 8 4 == h.total && cmdArg pk 12 1 == h.kind
    && (pieceFault b).isNone && pieceCrcOk b

/-- A piece that the staging area takes (R355): none awaits confirmation, its image is new, and its totals agree. -/
def Fw.takes (w : Fw) (h : PieceHead) : Bool :=
  !w.awaiting && !w.rejects h.id && !(match w.staged with | some st => st.id.toNat == h.id && st.total != h.total | none => false)

/-- What the staging area's keeper does with a piece that it takes: one it holds changes nothing, another is stored, and relayed where
relay is enabled (R358). -/
def State.stored (s : State) (h : PieceHead) (b : List Byte) : State :=
  let w1 := s.fw.store h b
  if s.fw.holds h then s
  else if s.fw.relay then ({ s with fw := { w1 with relaySent := w1.relaySent + 1 } } : State).emit (.i3cPiece b)
  else { s with fw := w1 }

/-! ### Instructions of the Faces -/

/-- The Face of a row that is an instruction of its program. -/
def dataFace : Instr → Option FaceId
  | .benchForwardRead f _ | .benchTransposedRead f _ => some f
  | .weightLoad f _ => some f
  | .weightSwap f => some f
  | .drain f _ => some f
  | .finishedTileQueued f => some f
  | .keeperMac f _ => some f
  | .add f _ | .sub f _ | .mul f _ | .max f _ | .min f _ | .div f _ | .cmpEq f _ | .cmpLt f _ | .cmpLe f _ => some f
  | .muladd f _ => some f
  | .abs f _ | .neg f _ | .sqrt f _ => some f
  | .select f _ => some f
  | .convert f _ => some f
  | .quant f _ => some f
  | .intFinish f _ => some f
  | .sum f _ => some f
  | .maxr f _ | .minr f _ => some f
  | .compress f _ => some f
  | .expand f _ => some f
  | .qadd f _ => some f
  | .tswTest f _ => some f
  | .spallClear f _ => some f
  | .fnExp2 f _ | .fnLog2 f _ => some f
  | .fnTab f _ _ => some f
  | .fnGate f _ => some f
  | .smax1 f _ => some f
  | .smax2 f _ => some f
  | .normStats f _ => some f
  | .normApply f _ => some f
  | .normGrad1 f _ => some f
  | .normGrad2 f _ => some f
  | .smaxGrad1 f _ => some f
  | .smaxGrad2 f _ => some f
  | .gsScan f _ => some f
  | .moverTransfer f _ => some f
  | .fabricSend f _ => some f
  | .atomicAdd f _ => some f
  | _ => none

/-- An instruction that reaches beyond its Face: a mover's transfer, a send, an atomic add. -/
def reachesOut : Instr → Bool
  | .moverTransfer _ _ | .fabricSend _ _ | .atomicAdd _ _ => true
  | _ => false

/-- The first rule of PROG_VERIFY that an instruction breaks with these operands. -/
def brokenRule (s : State) : Instr → Option Nat
  | .benchForwardRead f o => firstOf [benchReadRule (s.tbl f) false (s.face f).width o, readStateRule s f false o]
  | .benchTransposedRead f o => firstOf [benchReadRule (s.tbl f) true (s.face f).width o, readStateRule s f true o]
  | .weightLoad f o => weightLoadRule (s.tbl f) (s.face f).width o
  | .weightSwap f => swapRule s f
  | .drain f o => firstOf [drainRule (s.tbl f) (s.face f).width o, drainStateRule s f o]
  | .finishedTileQueued f => checks [(decide ((s.face f).units.queue.length < 4), 91)]
  | .add f o | .sub f o | .mul f o => firstOf [addRule (s.tbl f) o, queueRule s f [o.a, o.b]]
  | .div f o => firstOf [divRule (s.tbl f) o, queueRule s f [o.a, o.b]]
  | .max f o | .min f o => firstOf [maxRule (s.tbl f) o, queueRule s f [o.a, o.b]]
  | .cmpEq f o | .cmpLt f o | .cmpLe f o => firstOf [cmpRule (s.tbl f) o, queueRule s f [o.a, o.b]]
  | .muladd f o => firstOf [muladdRule (s.tbl f) o, queueRule s f [o.a, o.b, o.c]]
  | .abs f o | .neg f o => firstOf [absRule (s.tbl f) o, queueRule s f [o.a]]
  | .sqrt f o => firstOf [sqrtRule (s.tbl f) o, queueRule s f [o.a]]
  | .select f o => firstOf [selectRule (s.tbl f) o, queueRule s f [o.a, o.b]]
  | .convert f o => firstOf [convertRule (s.tbl f) o, queueRule s f [o.a]]
  | .quant f o => firstOf [quantRule (s.tbl f) o, queueRule s f [o.a]]
  | .intFinish f o => firstOf [intFinishRule (s.tbl f) o, queueRule s f [o.acc, o.colsum]]
  | .sum f o => firstOf [sumRule (s.tbl f) o, queueRule s f [o.a]]
  | .maxr f o | .minr f o => firstOf [redRule (s.tbl f) o, queueRule s f [o.a]]
  | .compress f o => firstOf [compressRule (s.tbl f) o, queueRule s f [o.a]]
  | .expand f o => firstOf [expandRule (s.tbl f) o, queueRule s f [o.a]]
  | .qadd f o => qaddRule (s.tbl f) o
  | .tswTest _ o => tswTestRule o
  | .spallClear f l => namedRule (s.tbl f) l.id (some l.desc)
  | .fnExp2 f o | .fnLog2 f o | .fnTab f _ o => firstOf [fnRule (s.tbl f) [o.a] o.y o.cnt o.kept, queueRule s f [o.a]]
  | .fnGate f o => firstOf [fnRule (s.tbl f) [o.a, o.g] o.y o.cnt o.kept, queueRule s f [o.a, o.g]]
  | .smax1 f o => firstOf [smax1Rule (s.tbl f) o, queueRule s f [o.a]]
  | .smax2 f o => firstOf [smax2Rule (s.tbl f) o, queueRule s f [o.a]]
  | .normStats f o => firstOf [normStatsRule (s.tbl f) o, queueRule s f [o.a]]
  | .normApply f o => firstOf [normApplyRule (s.tbl f) o, queueRule s f (o.a :: (o.gamma.toList ++ o.beta.toList))]
  | .normGrad1 f o => firstOf [normGrad1Rule (s.tbl f) (s.bstat f) o, queueRule s f [o.x, o.dy, o.gamma]]
  | .normGrad2 f o => firstOf [normGrad2Rule (s.tbl f) o, queueRule s f [o.x, o.dy, o.gamma]]
  | .smaxGrad1 f o => firstOf [smaxGrad1Rule (s.tbl f) o, queueRule s f [o.yv, o.dy]]
  | .smaxGrad2 f o => firstOf [smaxGrad2Rule (s.tbl f) o, queueRule s f [o.yv, o.dy]]
  | .gsScan f o => gsScanRule (s.tbl f) o
  | .moverTransfer f o => moverRule s f o
  | .fabricSend f o => fabricSendRule s f o
  | .atomicAdd f o => atomicRule s f o
  | _ => none

/-- The instruction has its effect now: it breaks no rule of PROG_VERIFY, its Face issues, and everything it reads has come (R217, R253). -/
def goes (s : State) (i : Instr) : Bool :=
  (brokenRule s i).isNone && (match dataFace i with | some f => s.issues f && (s.missing f (readRanges f i)).isNone | none => false)

/-! ### The bytes an instruction stores to -/

/-- A page of a spall list. -/
def pageRange (f : FaceId) (l : Option SpallDesc) (u : Nat) : List (Nat × Nat) :=
  match l with
  | some l => [(pageAddr f l u, 16 * slotsOf l.scode)]
  | none => []

/-- The elements of a write stream, and the pages of its units in its spall list. -/
def dstRanges (f : FaceId) (d : Dst) : List (Nat × Nat) :=
  let fmt := StreamFmt d.st.desc
  (streamAddrs f d.st.desc).flatMap fun a =>
    if fmt.isBp then (spAddr f (a / 8 - spAddr f 0), fmt.bits / 8)
      :: pageRange f d.st.spall (match d.st.spall with | some l => unitOf l (a / 8 - spAddr f 0) | none => 0)
    else [(a / 8, elemBytes fmt a)]

/-- A read of the finished-tile queue writes the tile's status word (R106). -/
def srcRanges (f : FaceId) : Src → List (Nat × Nat)
  | .mem _ => []
  | .queue tsw _ => [(spAddr f tsw.toNat, 16)]

/-- A statistics block, where an address names one (R115). -/
def statRanges (f : FaceId) (st : Stat) : List (Nat × Nat) := optReads f st.addr 64

/-- The kept copy (R157). -/
def keptRanges (f : FaceId) (k : Option Kept) : List (Nat × Nat) := k.toList.flatMap fun k => dstRanges f k.y

/-- Every byte that an instruction may store to. -/
def storesTo : Instr → List (Nat × Nat)
  | .add f o | .sub f o | .mul f o | .div f o | .max f o | .min f o | .cmpEq f o | .cmpLt f o | .cmpLe f o =>
    srcRanges f o.a ++ srcRanges f o.b ++ dstRanges f o.y ++ keptRanges f o.kept
  | .muladd f o => srcRanges f o.a ++ srcRanges f o.b ++ srcRanges f o.c ++ dstRanges f o.y ++ keptRanges f o.kept
  | .abs f o | .neg f o | .sqrt f o => srcRanges f o.a ++ dstRanges f o.y ++ keptRanges f o.kept
  | .select f o => srcRanges f o.a ++ srcRanges f o.b ++ dstRanges f o.y
  | .convert f o => srcRanges f o.a ++ dstRanges f o.y ++ keptRanges f o.kept ++ statRanges f o.stat
  | .quant f o =>
    srcRanges f o.a ++ dstRanges f o.y ++ statRanges f o.stat ++ [(spAddr f o.recs.toNat, 16 * recRows o.a)]
      ++ (streamAddrs f o.y.st.desc).flatMap fun a =>
        pageRange f o.y.st.spall (match o.y.st.spall with | some l => unitOf l (a / 8 - spAddr f 0) | none => 0)
  | .intFinish f o => srcRanges f o.acc ++ srcRanges f o.colsum ++ dstRanges f o.y ++ keptRanges f o.kept ++ statRanges f o.stat
  | .sum f o => srcRanges f o.a ++ dstRanges f o.y
  | .maxr f o | .minr f o => srcRanges f o.a ++ dstRanges f o.y ++ dstRanges f o.idx
  | .compress f o => srcRanges f o.a ++ dstRanges f o.y ++ [(spAddr f o.countW.toNat, 4)]
  | .expand f o => srcRanges f o.a ++ dstRanges f o.y
  | .qadd f o => dstRanges f o.y
  | .tswTest f o => [(spAddr f o.out.toNat, 4)]
  | .spallClear f l => spallRanges f (some l.desc)
  | .fnExp2 f o | .fnLog2 f o | .fnTab f _ o => srcRanges f o.a ++ dstRanges f o.y ++ keptRanges f o.kept
  | .fnGate f o => srcRanges f o.a ++ srcRanges f o.g ++ dstRanges f o.y ++ keptRanges f o.kept
  | .smax1 f o => srcRanges f o.a ++ [(spAddr f o.recs.toNat, 8 * recRows o.a)]
  | .smax2 f o => srcRanges f o.a ++ dstRanges f o.y ++ keptRanges f o.kept
  | .normStats f o => srcRanges f o.a ++ [(spAddr f o.recs.toNat, 16 * recRows o.a)]
  | .normApply f o => (o.a :: (o.gamma.toList ++ o.beta.toList)).flatMap (srcRanges f) ++ dstRanges f o.y ++ keptRanges f o.kept
  | .normGrad1 f o => [o.x, o.dy, o.gamma].flatMap (srcRanges f) ++ [(spAddr f o.recs.toNat, 16 * recRows o.x)]
  | .normGrad2 f o => [o.x, o.dy, o.gamma].flatMap (srcRanges f) ++ dstRanges f o.y ++ o.dyx.toList.flatMap (dstRanges f)
  | .smaxGrad1 f o => srcRanges f o.yv ++ srcRanges f o.dy ++ [(spAddr f o.out.toNat, 4 * recRows o.yv)]
  | .smaxGrad2 f o => srcRanges f o.yv ++ srcRanges f o.dy ++ dstRanges f o.y
  | .gsScan f o =>
    dstRanges f o.y ++ [(spAddr f o.ssw.toNat, 16)]
      ++ (match o.cout with | some a => [(spAddr f a.toNat, 4 * (o.ch * o.g))] | none => [])
  | .drain f o =>
    match o.dst with
    | .raw tile tsw =>
      if o.rows = 0 then [] else [(spAddr f tile.toNat, o.rows * o.cols * ((rawFmt o.pair).bits / 8)), (spAddr f tsw.toNat, 16)]
    | .queue => (List.range (o.rows * o.cols / 32)).flatMap fun i => pageRange f o.spall (drainUnit o i)
  | _ => []

def outside (x : Nat) (rs : List (Nat × Nat)) : Bool := rs.all fun r => decide (x < r.1) || decide (r.1 + r.2 ≤ x)

/-! ### Collective hops -/

/-- The present step of a half can run: the Pit runs a pass of several members, and every packet of the step is visible (R297). -/
def State.hopGoes (s : State) (b : Bucket) (h : Bool) : Bool :=
  s.running && !s.tk.haltTaken && (b.state == .running || b.state == .prepass) && !s.pit.axes.isEmpty && !(b.half h).past && s.stepReady b h
    && s.paidUp b h

/-- A bucket's staged packets become `l`. -/
def State.withSegs (s : State) (id : BitVec 12) (l : List Segment) : State :=
  match s.bucket id with
  | some b => s.setBucket { b with segs := l }
  | none => s

end Sys2Proof.Machine
end

