-- ==== Sys2Proof/Certificates/Slice0/Obligations.lean ====
section
/-! DEFINITION. The statements for the provers, one definition each; OBLIGATIONS.json lists them. -/

open Sys2Proof
open Sys2Proof.Machine

/-! ### The queue of waiting commands and the invariant -/

/-- A step runs the command at the front of the queue on the state with the queue's rest, and idles on an empty queue (log entry 5:
idling is the model's choice). -/
def Obligations.StepRunsTheFrontCommand : Prop :=
  (∀ (s : State) (c : Instr), step { s with pending := c :: s.pending } = exec c s) ∧ ∀ s : State, s.pending = [] → step s = .next s

/-- Every step keeps memory in its canonical form and every Face, queue pair and Haul port in place. -/
def Obligations.EveryStepKeepsTheInvariant : Prop :=
  ∀ s t : State, s.wf = true → step s = .next t → t.wf = true

def Obligations.ResetMeetsTheInvariant : Prop := State.reset.wf = true

/-! ### Command packets: steps 1 to 7 of R320 -/

/-- A packet that steps 1 to 7 let through meets its own opcode's rules, and is answered by them. -/
def Obligations.PassedPacketMeetsItsOpcode : Prop :=
  ∀ (s : State) (o : Op) (pk : CmdPacket) (plans : List (BitVec 2)) (partner : Option Peer),
    let s1 := s.told o plans partner
    s1.takes o pk = true → exec (o.row pk plans partner) s = .next ((s1.popped pk).answer (acceptOf o) (opInfo o).code pk)

/-- A packet refused at step 1, 2 or 3, at one of steps 4 to 7, or by its opcode's rules gets one reply with the status and payload of
the first check that fails; nothing else changes but its queue's indices and, where the rules had read an artefact, what that read finds
in memory (R249). (What EPOCH_BEGIN's and TWIN_PAIR's exchange has told stays known, log entries 58 and 60.) -/
def Obligations.RefusedPacketChangesNothing : Prop :=
  ∀ (s : State) (o : Op) (pk : CmdPacket) (plans : List (BitVec 2)) (partner : Option Peer) (r : Refuse),
    let s1 := s.told o plans partner
    let s2 := s1.popped pk
    s1.open_ o pk = true →
    (formChecks (opInfo o).code (some o) pk = some r →
      exec (o.row pk plans partner) s = .next (s2.replyNow (cmdKey pk) r.1 r.2))
    ∧ (formChecks (opInfo o).code (some o) pk = none → packetChecks s2 o pk = some r →
      exec (o.row pk plans partner) s = .next (s2.replyNow (cmdKey pk) r.1 r.2))
    ∧ (s1.takes o pk = true → (∃ x, acceptOf o s2 pk (s2.ticket pk) = x ∧ x = .refuse r) →
      exec (o.row pk plans partner) s = .next (s2.replyNow (cmdKey pk) r.1 r.2))
    ∧ (∀ t, s1.takes o pk = true → (∃ x, acceptOf o s2 pk (s2.ticket pk) = x ∧ x = .reject t r) →
      (t = s2 ∨ ∃ rs, t = s2.noteReads .hub rs) ∧ exec (o.row pk plans partner) s = .next (t.replyNow (cmdKey pk) r.1 r.2))

/-! ### Configuration, programs, runs, epochs -/

def Obligations.ConfigurationCommandsTakeEffect : Prop :=
  ∀ (s : State) (pk : CmdPacket),
    (s.takes .cfgRead pk = true → cfgReadGoes (s.popped pk) pk = true →
      exec (.cfgRead pk) s = .next ((s.popped pk).okNow .cfgRead pk
        ((s.popped pk).csrBytes (if cmdArg pk 10 1 = 1 then (s.popped pk).sched.staging else [])
          (cmdArg pk 0 8) (cmdArg pk 8 2))))
    ∧ (s.takes .cfgStage pk = true → cfgStageGoes (s.popped pk) pk = true →
      let s1 := s.popped pk
      exec (.cfgStage pk) s =
        .next (({ s1 with sched := { s1.sched with staging := (stageEntries pk).foldl stageOne s1.sched.staging } } : State).okNow .cfgStage pk []))
    ∧ (s.takes .cfgCommit pk = true → cfgCommitGoes (s.popped pk) = true →
      let s1 := s.popped pk
      exec (.cfgCommit pk) s = .next (({ s1 with sched := { s1.sched with
          commits := s1.sched.commits ++ [⟨s1.ticket pk, actTick s1 pk, s1.sched.staging⟩], staging := [] } } : State).outstandingNow .cfgCommit
        (s1.ticket pk) pk))

def Obligations.ProgramCommandsTakeEffect : Prop :=
  ∀ (s : State) (pk : CmdPacket),
    (s.takes .progLoad pk = true → programGoes (s.popped pk) pk = true →
      let s1 := s.popped pk
      exec (.progLoad pk) s =
        .next (((s1.imageRead pk).loadProgram (s1.imageOf pk) (cmdArg pk 16 8) (targetFaces pk.target)).okNow .progLoad pk []))
    ∧ (s.takes .progVerify pk = true → programGoes (s.popped pk) pk = true →
      exec (.progVerify pk) s = .next (((s.popped pk).imageRead pk).okNow .progVerify pk []))

/-- LAUNCH arms the Pit and waits for its boundary; HALT_AT waits for its boundary and schedules the halt with cause 1, or, on a
STOPPED Pit, replies at once (its payload there is the model's choice, log entry 45). -/
def Obligations.LaunchAndHaltAreScheduled : Prop :=
  ∀ (s : State) (pk : CmdPacket),
    (s.takes .launch pk = true → launchGoes (s.popped pk) pk = true →
      let s1 := s.popped pk
      exec (.launch pk) s = .next (({ s1 with
          tk := { s1.tk with run := .armed }
          sched := { s1.sched with launch := some ⟨s1.ticket pk, actTick s1 pk, BitVec.ofNat 32 (cmdArg pk 0 4)⟩ } } : State).outstandingNow .launch
        (s1.ticket pk) pk))
    ∧ (s.takes .haltAt pk = true →
      let s1 := s.popped pk
      exec (.haltAt pk) s = .next (
        if s1.tk.run = .stopped then s1.okNow .haltAt pk (haltPayload 0 0)
        else (({ s1 with sched := { s1.sched with haltAts := s1.sched.haltAts ++ [⟨s1.ticket pk, actTick s1 pk⟩] } } : State).schedHalt
          (actTick s1 pk) 1 false).outstandingNow .haltAt (s1.ticket pk) pk))

/-- EPOCH_BEGIN waits for its boundary, EPOCH_CLOCK_LOCK gives its reply, ROUTE_EPOCH stages a route image. (EPOCH_BEGIN's row brings the
clock plans that the Pit's other members would get, by which R26 refuses it with PIT_DENIED: log entry 60, the model's choice.) -/
def Obligations.EpochCommandsTakeEffect : Prop :=
  ∀ (s : State) (pk : CmdPacket),
    (∀ plans : List (BitVec 2),
      let s0 : State := { s with pit := { s.pit with plans := plans } }
      s0.takes .epochBegin pk = true → epochBeginGoes (s0.popped pk) pk = true →
      let s1 := s0.popped pk
      exec (.epochBegin ⟨pk, plans⟩) s = .next (
        ({ s1 with sched := { s1.sched with epoch := some ⟨s1.ticket pk, actTick s1 pk⟩ } } : State).outstandingNow .epochBegin (s1.ticket pk) pk))
    ∧ (∀ t : Ticket, s.sched.clockLock = some t →
      exec .epochClockLock s = .next (({ s with sched := { s.sched with clockLock := none } } : State).finish t .ok []))
    ∧ (s.takes .routeEpoch pk = true → routeEpochGoes (s.popped pk) pk = true →
      let s1 := s.popped pk
      let s2 := s1.noteReads .hub [(cmdArg pk 0 8, routeLength)]
      exec (.routeEpoch pk) s = .next (({ s2 with
        fab := { s2.fab with staged := some (routeImageOf (s1.mem.bytes (cmdArg pk 0 8) routeLength)) } } : State).okNow .routeEpoch pk []))

/-! ### Tables and memory commands -/

def Obligations.TableCommandsTakeEffect : Prop :=
  ∀ (s : State) (pk : CmdPacket),
    (s.takes .tableLoad pk = true → tableLoadGoes (s.popped pk) pk = true →
      let s1 := s.popped pk
      let fs := targetFaces pk.target
      let a := cmdArg pk 0 8
      let n := cmdArg pk 8 4
      let fl := cmdArg pk 13 1
      let s2 := fs.foldl (fun s f => s.updBanks f fun b => { b with loadPending := true }) (s1.noteReads .hub [(a, n)])
      exec (.tableLoad pk) s = .next (({ s2 with loads := s2.loads ++
        [⟨s1.ticket pk, fs, ⟨cmdArg pk 12 1 % 8, Nat.mod_lt _ (by omega)⟩, tableOf (s1.mem.bytes a n), bit fl 1, bit fl 2⟩] } : State).outstandingNow .tableLoad
        (s1.ticket pk) pk))
    ∧ (s.takes .tableSwap pk = true → tableSwapGoes (s.popped pk) pk = true →
      let s1 := s.popped pk
      let fs := targetFaces pk.target
      let s2 := fs.foldl (fun s f => s.updBanks f fun b => { b with swapAt := some (actTick s1 pk) }) s1
      exec (.tableSwap pk) s = .next (({ s2 with sched := { s2.sched with
        swaps := s2.sched.swaps ++ [(s1.ticket pk, actTick s1 pk, fs)] } } : State).outstandingNow .tableSwap (s1.ticket pk) pk))
    ∧ (∀ (f : FaceId) (r : List FaceId), s.takes .tableQuery pk = true → targetFaces pk.target = f :: r →
      let s1 := s.popped pk
      let b := s1.banks f
      let headers := fun (k : Bank) => k.slots.flatMap fun t => match t with | some t => padTo 64 t.header | none => zeros 64
      exec (.tableQuery pk) s = .next (s1.okNow .tableQuery pk (leBytes 8 b.reg ++ headers b.live ++ headers b.shadow)))

def Obligations.MemoryCommandsTakeEffect : Prop :=
  ∀ (s : State) (pk : CmdPacket),
    (s.takes .memCopy pk = true → memCopyGoes (s.popped pk) pk = true →
      let s1 := s.popped pk
      let src := cmdArg pk 0 8
      let n := cmdArg pk 16 8
      let fl := cmdArg pk 24 1
      exec (.memCopy pk) s = .next (((s1.memCopy src (cmdArg pk 8 8) n (bit fl 0) (bit fl 1)).startMem (s1.ticket pk)
        (if bit fl 0 then [] else s1.mem.markedIn src n)).outstandingNow .memCopy (s1.ticket pk) pk))
    ∧ (s.takes .memFill pk = true → memFillGoes (s.popped pk) pk = true →
      let s1 := s.popped pk
      let data := (List.replicate (cmdArg pk 8 8 / 8) (leBytes 8 (cmdArg pk 16 8))).flatten
      exec (.memFill pk) s = .next (((({ s1 with mem := s1.mem.writeBytes (cmdArg pk 0 8) data [] } : State).hostWrite (cmdArg pk 0 8)
        (cmdArg pk 8 8)).startMem (s1.ticket pk) []).outstandingNow .memFill (s1.ticket pk) pk))
    ∧ (s.takes .memScrub pk = true → memScrubGoes (s.popped pk) pk = true →
      let s1 := s.popped pk
      exec (.memScrub pk) s = .next (((({ s1 with mem := s1.mem.scrub (cmdArg pk 0 8) (cmdArg pk 8 8) } : State).hostWrite (cmdArg pk 0 8)
        (cmdArg pk 8 8)).startMem (s1.ticket pk) []).outstandingNow .memScrub (s1.ticket pk) pk))
    ∧ (s.takes .memRetire pk = true → cmdArg pk 0 1 < 16 → cmdZero pk 1 31 = true →
      exec (.memRetire pk) s = .next (((s.popped pk).stackOut (cmdArg pk 0 1) 3).okNow .memRetire pk []))

/-! ### Streams -/

/-- STREAM_OPEN allocates a slot, writes the initial state of record and the entry, and answers with handle and incarnation; a poisoned
initial state is kept and reported. -/
def Obligations.StreamOpenCreatesTheStream : Prop :=
  ∀ (s : State) (pk : CmdPacket) (h : BitVec 16) (spill : Option DevAddr), s.takes .streamOpen pk = true →
    streamOpenGoes (s.popped pk) pk = true →
    (∃ x, (s.popped pk).allocate pk.target.toNat (cmdArg pk 32 4 + cmdArg pk 36 4) = x ∧ x = .ok (h, spill)) →
    let s1 := s.popped pk
    let e0 := openedStream pk h spill
    let s2 := s1.openedState pk e0
    let gs := if cellZeroInit ((cmdParams pk).take 32) then [] else s1.mem.markedIn (cmdArg pk 40 8) (cmdArg pk 36 4)
    let x := s2.newStream { e0 with narPresent := s2.stateNar e0 }
    exec (.streamOpen pk) s = .next (
      if gs.isEmpty then x.1.okNow .streamOpen pk x.2.ident else (x.1.noteAccepted (opInfo .streamOpen).code pk).replyNow (cmdKey pk) .memPoisoned (poisonPayload gs))

/-- STREAM_PAUSE, STREAM_RESUME, STREAM_CLOSE and STREAM_QUERY on the stream they name, in every state in which the manual accepts them. -/
def Obligations.StreamStateCommands : Prop :=
  ∀ (s : State) (pk : CmdPacket) (e : StreamEnt),
    (s.takes .streamPause pk = true → (s.popped pk).named pk e = true →
      let s1 := s.popped pk
      (e.state = .open_ ∨ e.state = .active ∨ e.state = .paused → exec (.streamPause pk) s =
        .next ((s1.afterFlight { e with state := .paused } (s1.ticket pk)).outstandingNow .streamPause (s1.ticket pk) pk)))
    ∧ (s.takes .streamResume pk = true → (s.popped pk).named pk e = true →
      let s1 := s.popped pk
      (e.state = .paused ∨ e.state = .moved → exec (.streamResume pk) s = .next ((s1.putStream { e with state := .active }).okNow .streamResume pk []))
      ∧ (e.state = .open_ ∨ e.state = .active → exec (.streamResume pk) s = .next (s1.okNow .streamResume pk [])))
    ∧ (s.takes .streamClose pk = true → (s.popped pk).named pk e = true → e.state ≠ .exporting →
      let s1 := s.popped pk
      let s2 := (s1.returnReqs (e.queue.filter fun r => !e.flies r) .streamUnknown).dropExports e.exports
      exec (.streamClose pk) s = .next ((
        if e.flight.isEmpty then (s2.freeStream e).owe (e.waiting ++ [s1.ticket pk])
        else s2.putStream { e with
          queue := e.queue.filter e.flies, closing := true, exports := [], waiting := e.waiting ++ [s1.ticket pk] }).outstandingNow .streamClose
        (s1.ticket pk) pk))
    ∧ (s.takes .streamQuery pk = true → (s.popped pk).named pk e = true →
      exec (.streamQuery pk) s = .next ((s.popped pk).okNow .streamQuery pk e.bytes))

/-- STREAM_CHUNK queues the chunks of a request, and its first one makes the stream ACTIVE. At CHUNK_COMPLETE the carried state and
the outputs are written and the step count grows. A request without further chunks replies OK with its outputs where they fit, at the
next boundary; one with more goes on, or returns where the stream closes or is exported. -/
def Obligations.StreamChunksRun : Prop :=
  (∀ (s : State) (pk : CmdPacket) (e : StreamEnt), s.takes .streamChunk pk = true → chunkForm pk = none →
    (s.popped pk).named pk e = true → chunkRefusal (s.popped pk) pk e = none →
    let s1 := s.popped pk
    exec (.streamChunk pk) s = .next ((s1.putStream { e with
      queue := e.queue ++ [⟨s1.ticket pk, s1.tk.tickCount.toNat, bit (cmdArg pk 2 1) 1, chunksAsked pk e, 0, [], none⟩]
      state := if e.state = .open_ then .active else e.state }).outstandingNow .streamChunk (s1.ticket pk) pk))
  ∧ ∀ (s : State) (h : BitVec 16) (carry outs : List Byte) (e : StreamEnt) (x : InFlight) (l : List InFlight) (r : ChunkReq),
    s.streamOf h = some e → e.flight = x :: l → x.doneAt ≤ s.tk.tickCount.toNat → s.running = true →
    (e.queue.find? fun r => r.tkt == x.tkt) = some r →
    let s1 := s.storeChunk e x.chunk carry outs
    let r1 : ChunkReq := { r with done := r.done + x.chunk.len, outs := r.outs ++ outs, redo := none }
    let e1 := fun (q : List ChunkReq) => ({ e with
      stepCount := e.stepCount + BitVec.ofNat 64 x.chunk.len, chunks := e.chunks + 1, lastL := BitVec.ofNat 8 (x.chunk.len - 1)
      narPresent := s1.stateNar e, flight := [], queue := q, waiting := []
      exports := e.exports.map fun y => if y.record.isNone then { y with at_ := s.tk.tickCount.toNat } else y } : StreamEnt)
    let put := fun (q : List ChunkReq) => (if e.closing then s1.freeStream (e1 q) else s1.putStream (e1 q)).owe e.waiting
    let ends := fun (st : Status) (p : List Byte) => exec (.chunkComplete h carry outs) s =
      .next ((put (e.queue.filter fun q => q.tkt ≠ x.tkt)).form r.tkt (BitVec.ofNat 32 x.doneAt) st p)
    (r.todo = [] → ends .ok (if r1.outs.length ≤ 4048 then r1.outs else []))
    ∧ (r.todo ≠ [] → e.closing = true → ends .streamUnknown [])
    ∧ (r.todo ≠ [] → e.closing = false → e.state = .exporting → ends .streamMoved (leBytes 4 r1.done))
    ∧ (r.todo ≠ [] → e.closing = false → e.state ≠ .exporting →
      exec (.chunkComplete h carry outs) s = .next (put (e.queue.map fun q => if q.tkt = x.tkt then r1 else q)))

/-- An export: with an execute-at tick it waits for its boundary; acceptance returns the requests that have not begun and stops dispatch,
or, of a MOVED stream, sends its last record again; the snapshot writes the record or sends it; a record that has landed marks the export
written, and one that has not makes the stream PAUSED with a reply (log entry 152: how a record travels). -/
def Obligations.StreamExportsGoThrough : Prop :=
  (∀ (s : State) (pk : CmdPacket) (e : StreamEnt), s.takes .streamExport pk = true → (s.popped pk).named pk e = true →
    streamExportGoes (s.popped pk) pk e = true →
    let s1 := s.popped pk
    let t := s1.ticket pk
    let keep := fun (r : ChunkReq) => e.flies r || r.redo.isSome
    (e.state ≠ .moved → exec (.streamExport pk) s = .next (((s1.returnReqs (e.queue.filter fun r => !keep r) .streamMoved).putStream { e with
      state := .exporting, queue := e.queue.filter keep, exports := e.exports ++ [s1.newExport pk t] }).outstandingNow .streamExport t pk))
    ∧ ∀ rec_ tick, e.state = .moved → e.lastRec = some (rec_, tick) →
      let w := s1.writeRecord e { s1.newExport pk t with tick := tick } rec_ (s1.mem.markedIn e.addr (e.carryBytes + e.initBytes))
      exec (.streamExport pk) s = .next ((w.1.putStream { e with exports := e.exports ++ [w.2] }).outstandingNow .streamExport t pk))
  ∧ (∀ (s : State) (pk : CmdPacket), s.takes .streamExport pk = true → pk.execAt ≠ 0 →
    let s1 := s.popped pk
    let t := s1.ticket pk
    exec (.streamExport pk) s = .next { s1 with
      strm := { s1.strm with deferred := s1.strm.deferred ++ [(t, pk.execAt.toNat, pk)] }
      host := { s1.host with outstanding := s1.host.outstanding ++ [t] } })
  ∧ (∀ (s : State) (h : BitVec 16) (e : StreamEnt) (x : Export), s.streamOf h = some e → e.moving = some x →
    e.flight = [] → e.queue = [] → x.record = none → x.at_ < s.tk.tickCount.toNat →
    let n := e.carryBytes + e.initBytes
    let s1 := s.noteReads .hub [(e.addr, n)]
    let e1 := { e with narPresent := e.narPresent || s1.stateNar e }
    let w := s1.writeRecord e1 { x with tick := s.tk.tickCount } (s1.recordOf e1) (s1.mem.markedIn e.addr n)
    exec (.exportSnapshot h) s = .next (w.1.putStream { e1 with
      exports := e.exports.dropLast ++ [w.2], lastRec := some (s1.recordOf e1, s.tk.tickCount) }))
  ∧ ∀ (s : State) (h : BitVec 16) (how : ExportEnd) (e : StreamEnt) (x : Export), s.streamOf h = some e →
    (e.exports.find? fun x => x.record.isSome && !x.written) = some x →
    (exportFailure x how = none → exec (.exportWriteDone h how) s = .next (s.putStream { e with
      exports := e.exports.map fun y => if y.tkt = x.tkt then { y with written := true } else y }))
    ∧ ∀ q, exportFailure x how = some q → exec (.exportWriteDone h how) s = .next ((s.putStream { e with
        exports := e.exports.filter fun y => y.tkt ≠ x.tkt
        state := if (∃ y, e.moving = some y ∧ y.tkt = x.tkt) ∨ e.state = .moved then .paused else e.state }).finish x.tkt q.1 q.2)

/-- STREAM_IMPORT checks and unpacks a record into a new PAUSED stream; a record that lands from another module, once all its packets are
visible (log entry 152), is written with its marks, or refused with a packet to its sender. -/
def Obligations.StreamRecordsArrive : Prop :=
  (∀ (s : State) (pk : CmdPacket) (h : BitVec 16) (spill : Option DevAddr), s.takes .streamImport pk = true →
    streamImportGoes (s.popped pk) pk = true →
    let s1 := s.popped pk
    let rec_ := s1.recordAt pk
    let c := s1.mem.nat (cmdArg pk 0 8 + 4) 4
    let i := s1.mem.nat (cmdArg pk 0 8 + 8) 4
    let s2 := s1.noteReads .hub [(cmdArg pk 0 8, 96 + c + i)]
    (∃ x, s2.allocate pk.target.toNat (c + i) = x ∧ x = .ok (h, spill)) →
    let e0 := importedStream s2 h spill (((cmdParams pk).drop 32).take 32) rec_
    let x := ({ s2 with mem := s2.mem.writeBytes e0.addr ((rec_.drop 64).take (c + i)) [] } : State).newStream e0
    exec (.streamImport pk) s = .next (
      (if leAt rec_ 24 8 = s2.aid then x.1 else x.1.raise 0x0103 .module 0 (leBytes 8 (leAt rec_ 24 8))).okNow .streamImport pk x.2.ident))
  ∧ ∀ (s : State) (src : FAddr) (pit : PitId) (tag : BitVec 16) (addr : DevAddr) (n : Nat),
    let land := exec (.streamRecordLanding src pit tag addr n) s
    (s.recordPieces src pit tag addr n = none → land = .next s)
    ∧ ∀ ps, s.recordPieces src pit tag addr n = some ps →
      let a := addr.toNat
      let s0 : State := { s with fab := { s.fab with delivered := ps.foldl List.erase s.fab.delivered } }
      let s1 := s0.noteReads .hub [(a, n)]
      let fits := s.mem.cmdRangeOk a n && !touchesFixed s.strm.slotK.toNat a n
      let answer := fun (x : State) (st : Status) (p : List Byte) => x.deliver ⟨.fabric src, tag, st, s.tick32, s.tick32, p⟩
      (fits = true → s.mem.markedIn a n = [] → land =
        .next (({ s1 with mem := s1.mem.writeBytes a (ps.flatMap (·.body)) (ps.flatMap landingMarks) } : State).disturb a n))
      ∧ (fits = true → s.mem.markedIn a n ≠ [] → land = .next (answer s1 .memPoisoned (poisonPayload (s.mem.markedIn a n))))
      ∧ (fits = false → land = .next (answer s0 .badParam (leBytes 4 32 ++ leBytes 4 0xFFFFFFFF)))

/-! ### Buckets -/

/-- COLL_BUCKET_DEF defines or redefines a bucket, COLL_ARM begins a new pass number with fresh status and replies when the pass ends,
COLL_QUERY returns the status, of an undefined bucket STATE 0. COLL_FILL counts a fill mark
of a filling bucket, and the last one makes it full at this tick; a stray mark is counted and raises a warning. -/
def Obligations.BucketCommandsTakeEffect : Prop :=
  (∀ (s : State) (pk : CmdPacket),
    (s.takes .collBucketDef pk = true → bucketForm pk = none →
      let s1 := s.popped pk
      let id : BitVec 12 := pk.target.setWidth 12
      let d := bucketDesc ((cmdParams pk).take 64)
      bucketRefusal s1 d id = none →
      (∀ b, s1.bucket id = some b → exec (.collBucketDef pk) s = .next ((s1.setBucket { b with defn := d }).okNow .collBucketDef pk []))
      ∧ (s1.bucket id = none → exec (.collBucketDef pk) s = .next (
        ({ s1 with coll := { s1.coll with buckets := s1.coll.buckets ++ [Bucket.blank id d] } } : State).okNow .collBucketDef pk [])))
    ∧ (∀ b, s.takes .collArm pk = true → (s.popped pk).bucket (pk.target.setWidth 12) = some b → b.state = .unarmed →
      let s1 := s.popped pk
      exec (.collArm pk) s = .next ((s1.setBucket { Bucket.blank b.id b.defn with
        state := .filling, pass := b.pass + 1, tkt := some (s1.ticket pk) }).outstandingNow .collArm (s1.ticket pk) pk))
    ∧ (s.takes .collQuery pk = true →
      let s1 := s.popped pk
      (∀ b, s1.bucket (pk.target.setWidth 12) = some b → exec (.collQuery pk) s = .next (s1.okNow .collQuery pk b.status))
      ∧ (s1.bucket (pk.target.setWidth 12) = none → exec (.collQuery pk) s = .next (s1.okNow .collQuery pk (zeros 54 ++ leBytes 2 2 ++ zeros 8)))))
  ∧ ∀ (s : State) (f : FaceId) (b : Bucket) (id : BitVec 12), s.issues f = true →
    let go := fun (g : State → State) => exec (.collFill f id) s = .next (s.atView f g)
    (s.bucket id = some b → b.state = .filling → b.full = false → b.fills + 1 ≠ b.desc.nfill.toNat →
      go fun v => v.setBucket { b with fills := b.fills + 1 })
    ∧ (s.bucket id = some b → b.state = .filling → b.full = false → b.fills + 1 = b.desc.nfill.toNat →
      go fun v => v.setBucket { b with fills := b.fills + 1, full := true, fullTick := s.tk.tickCount })
    ∧ (s.bucket id = some b → b.state ≠ .filling ∨ b.full = true →
      go fun v => (v.setBucket { b with stray := satInc 16 b.stray }).raise 0x0109 (.face f.val) 0 (leBytes 2 id.toNat))
    ∧ (s.bucket id = none → go fun v => v.raise 0x0109 (.face f.val) 0 (leBytes 2 id.toNat))


/-! ### Tests, readiness, error records -/

/-- BIST_RUN puts the tested Faces in TESTING, keeping the state before, zeroes a tested stack, and replies when BIST_DONE names it.
READY_QUERY returns the readiness and the Faces' states, and FACE_RETIRE marks its Faces for the next epoch. -/
def Obligations.TestsReadinessAndRetirement : Prop :=
  (∀ (s : State) (pk : CmdPacket), s.takes .bistRun pk = true → bistRunGoes (s.popped pk) pk = true →
    let s1 := s.popped pk
    let kind := cmdArg pk 0 1
    let fs := if kind = 0 then targetFaces pk.target else []
    let s2 : State := { s1 with bists := s1.bists ++ [⟨s1.ticket pk, kind, cmdArg pk 1 1, fs⟩] }
    let s3 := fs.foldl (fun s f => s.updFace f fun x =>
      { x with prior := if s1.underBist f then x.prior else x.state, state := .testing }) s2
    exec (.bistRun pk) s = .next ((if kind = 1 then { s3 with mem := s3.mem.scrubStack (cmdArg pk 1 1) } else s3).outstandingNow .bistRun (s1.ticket pk) pk))
  ∧ (∀ (s : State) (key : CmdKey) (res : BistResult) (j : BistJob), (s.bists.find? fun j => j.tkt.key == key) = some j →
    let s1 : State := { s with bists := s.bists.filter fun x => x.tkt.key ≠ key }
    (j.kind = 0 → exec (.bistDone key res) s = .next (s1.facesTested j res))
    ∧ (j.kind = 1 →
      let s2 : State := { s1 with mem := s1.mem.scrubStack j.index }
      exec (.bistDone key res) s = .next ((if res.pass then s2 else s2.stackOut j.index 1).finish j.tkt .ok
        (bistPayload (if res.pass then 0 else 2) 1 j.index 0 res.ms.toNat)))
    ∧ (j.kind ≠ 0 → j.kind ≠ 1 → exec (.bistDone key res) s = .next (s1.finish j.tkt .ok
        (bistPayload (if res.pass then 0 else 2) j.kind j.index 0 res.ms.toNat))))
  ∧ ∀ (s : State) (pk : CmdPacket),
    (s.takes .readyQuery pk = true →
      let s1 := s.popped pk
      exec (.readyQuery pk) s = .next (s1.okNow .readyQuery pk (leBytes 8 s1.readyMap ++ s1.faces.map fun x => BitVec.ofNat 8 (x.stateReg % 256))))
    ∧ (s.takes .faceRetire pk = true →
      let s1 := s.popped pk
      exec (.faceRetire pk) s = .next (((targetFaces pk.target).foldl (fun s f => s.updFace f fun x =>
        if x.state = .retired then x else { x with retirePend := true }) s1).okNow .faceRetire pk []))

/-- ERR_READ returns a register or up to 63 records of the log; ERR_ACK of ERR_PRIMARY's record moves ERR_SECONDARY into it, and an
empty ERR_SECONDARY clears STORM and LOST_FATAL; the Weighbridge numbers a raised record, logs it and places it. -/
def Obligations.ErrorRecordsAreLoggedAndAcknowledged : Prop :=
  ∀ (s : State) (pk : CmdPacket),
    (s.takes .errRead pk = true → errReadGoes (s.popped pk) pk = true →
      let s1 := s.popped pk
      exec (.errRead pk) s = .next (s1.okNow .errRead pk (
        if cmdArg pk 0 1 = 0 then optBytes s1.errs.primary
        else if cmdArg pk 0 1 = 1 then optBytes s1.errs.secondary
        else (s1.errs.from_ (cmdArg pk 4 4) (cmdArg pk 1 1)).flatMap Logged.bytes)))
    ∧ (s.takes .errAck pk = true → errAckGoes (s.popped pk) pk = true →
      let s1 := s.popped pk
      let e := s1.errs
      let more := e.secondary.isSome
      exec (.errAck pk) s = .next (({ s1 with errs := { e with
        primary := e.secondary, secondary := none, storm := e.storm && more, lostFatal := e.lostFatal && more } } : State).primaryIn.okNow .errAck pk []))
    ∧ ∀ (e : ErrRec) (rest : List ErrRec), s.pwr.weighbridge = true → s.errs.raised = e :: rest →
      let l : Logged := ⟨s.errs.lastSeq + 1, e⟩
      let y : Errs := { s.errs with raised := rest, lastSeq := l.seq, log := (l :: s.errs.log).take 4096 }
      (s.errs.primary = none → exec .errorRecord s = .next ((({ s with errs := { y with primary := some l } } : State).primaryIn).trace 3 0x0005 [l.seq]))
      ∧ (s.errs.primary ≠ none → s.errs.secondary = none →
        exec .errorRecord s = .next (({ s with errs := { y with secondary := some l } } : State).trace 3 0x0005 [l.seq]))
      ∧ (s.errs.primary ≠ none → s.errs.secondary ≠ none → exec .errorRecord s = .next (({ s with errs := { y with
          lost := satInc 32 y.lost, storm := true, lostFatal := y.lostFatal || e.cls == 3 } } : State).trace 3 0x0005 [l.seq]))

/-! ### Firmware -/

/-- A well-formed piece that the staging area takes is stored and relayed, over a queue or the management Ethernet, or from the relay
chain, which takes it only where relay is enabled. -/
def Obligations.FirmwarePiecesAreStored : Prop :=
  (∀ (s : State) (pk : CmdPacket), s.takes .fwPiece pk = true → fwPieceGoes (s.popped pk) pk = true →
    let s1 := s.popped pk
    let b := s1.pieceOf pk
    s1.fw.takes (pieceHead b) = true → exec (.fwPiece pk) s = .next (((s1.pieceRead pk).stored (pieceHead b) b).okNow .fwPiece pk []))
  ∧ ∀ (s : State) (b : List Byte), s.pwr.weighbridge = true → s.fw.relay = true → b.length = pieceLen → pieceFault b = none →
    pieceCrcOk b = true → s.fw.takes (pieceHead b) = true →
    exec (.fwRelayPiece b) s = .next (s.stored (pieceHead b) b)

/-- FW_STATUS, FW_RELAY_ENABLE and FW_CONFIRM; the minute count of an image that awaits confirmation, whose fallback falls due at 1,440. -/
def Obligations.FirmwareCommandsTakeEffect : Prop :=
  ∀ (s : State) (pk : CmdPacket),
    (s.takes .fwStatus pk = true → exec (.fwStatus pk) s = .next ((s.popped pk).okNow .fwStatus pk (s.popped pk).fw.status))
    ∧ (s.takes .fwRelayEnable pk = true → cmdArg pk 0 1 < 2 → cmdZero pk 1 31 = true →
      let s1 := s.popped pk
      let on := cmdArg pk 0 1 == 1
      exec (.fwRelayEnable pk) s = .next (({ s1 with fw := { s1.fw with
        relay := on
        half0 := if s1.fw.awaiting || !s1.fw.runHalf then s1.fw.half0.map (fun x => { x with relay := on }) else s1.fw.half0
        half1 := if s1.fw.awaiting || s1.fw.runHalf then s1.fw.half1.map (fun x => { x with relay := on }) else s1.fw.half1 } } : State).okNow .fwRelayEnable pk []))
    ∧ (s.takes .fwConfirm pk = true → (s.popped pk).fw.awaiting = true → (s.popped pk).fw.fallbackDue = false →
      (s.popped pk).selfCheck = true →
      let s1 := s.popped pk
      let w : Fw := { s1.fw with awaiting := false, boots := 0, staged := none }
      exec (.fwConfirm pk) s = .next (({ s1 with
        fw := if s1.fw.runHalf then { w with half0 := none } else { w with half1 := none } } : State).okNow .fwConfirm pk []))
    ∧ (s.takes .fwConfirm pk = true → (s.popped pk).fw.awaiting = false →
      exec (.fwConfirm pk) s = .next ((s.popped pk).okNow .fwConfirm pk []))
    ∧ (s.pwr.weighbridge = true → s.fw.awaiting = true → exec .opMinTick s = .next { s with
        fw := { s.fw with opMin := s.fw.opMin + 1, fallbackDue := s.fw.fallbackDue || decide (1440 ≤ s.fw.opMin + 1) } })

/-! ### Pits and twins -/

/-- PIT_CREATE on a module of no Pit: membership, rank, cleared counters and the origin of its ticks; PIT_DESTROY ends the run, discards
what the Pit had and scrubs memory, and replies when the scrub is done. -/
def Obligations.PitsAreCreatedAndDestroyed : Prop :=
  (∀ (s : State) (pk : CmdPacket), s.takes .pitCreate pk = true → pitCreateGoes (s.popped pk) pk = true →
    let s1 := s.popped pk
    exec (.pitCreate pk) s = .next ((s1.createPit (pitOf s1 pk) (BitVec.ofNat 64 (cmdArg pk 8 8)) (cmdArg pk 16 8)).okNow .pitCreate pk []))
  ∧ (∀ (s : State) (pk : CmdPacket), s.takes .pitDestroy pk = true →
    let s1 := s.popped pk
    let s2 := s1.sched.unpair.foldl (fun s t => s.finish t .ok []) { s1.endPit with sched := { s1.endPit.sched with unpair := [] } }
    exec (.pitDestroy pk) s = .next ((s2.leavePit (s1.ticket pk)).outstandingNow .pitDestroy (s1.ticket pk) pk))
  ∧ (∀ (s : State) (p : Pit) (origin : BitVec 64) (start : Nat),
    let t := s.createPit p origin start
    t.pit = { p with rank := BitVec.ofNat 15 (({ s with pit := p } : State).rankOf s.fab.faddr) } ∧ t.cnt = Counters.zero
      ∧ t.strm.incarn = 1 ∧ t.coll.origin = none ∧ t.tk.startTick = start ∧ t.tk.originFrame = origin ∧ t.mem = s.mem)
  ∧ (∀ (s : State) (t : Ticket), (s.leavePit t).pit.id = 0 ∧ (s.leavePit t).pit.scrub = some t ∧ (s.leavePit t).twin.paired = false
      ∧ (∀ x ∈ (s.leavePit t).faces, x.prog = none ∧ x.units.carry = [] ∧ x.units.queue = []) ∧ (s.leavePit t).mem.groups = []
      ∧ ∀ c ∈ (s.leavePit t).mem.cells, (s.mem.region c.1).isMem = false)
  ∧ ∀ (s : State) (bad : List DevAddr) (t : Ticket), s.pit.scrub = some t →
    exec (.pitScrubDone bad) s = .next ((bad.foldl State.badGranule { s with pit := { s.pit with scrub := none } }).finish t .ok [])

/-- TWIN_PAIR with a partner whose values agree, as the exchange with it has told (log entry 58: they come with the row), pairs the
module, and across Pits raises NOTICE to the joined one; TWIN_UNPAIR waits for the next boundary. -/
def Obligations.TwinCommandsTakeEffect : Prop :=
  ∀ (s : State) (pk : CmdPacket),
    (∀ p : Peer,
      let s0 : State := { s with twin := { s.twin with heard := some p } }
      let s1 := s0.popped pk
      s0.takes .twinPair pk = true → p.faddr.toNat = cmdArg pk 0 2 → p.pit.toNat = cmdArg pk 2 2 → cmdZero pk 4 28 = true →
      s1.fastSoon = false → s1.twinAgrees p = true →
      let notice := noticeOf p.hops s1.cfg.tpCur.toNat
      exec (.twinPair ⟨pk, some p⟩) s = .next (({ s1 with
        twin := { s1.twin with paired := true, partner := p.faddr, partnerPit := p.pit, mine := [], theirs := [], parts := [] }
        tk := { s1.tk with
          notice := if p.pit ≠ s1.pit.id ∧ s1.tk.notice.toNat < notice.toNat then notice else s1.tk.notice } } : State).okNow .twinPair pk []))
    ∧ (s.takes .twinUnpair pk = true →
      let s1 := s.popped pk
      exec (.twinUnpair pk) s = .next (({ s1 with sched := { s1.sched with unpair := s1.sched.unpair ++ [s1.ticket pk] } } : State).outstandingNow .twinUnpair
        (s1.ticket pk) pk))

/-! ### The tick -/

/-- At a boundary the steps of R214 happen in their order, then the trace record, and the Derrick takes what may now be accepted. -/
def Obligations.BoundaryTakesItsStepsInOrder : Prop :=
  ∀ s : State,
    (s.pwr.hub = true →
      let early := s.enterTick.takeHalt.takeCommits.takeEpoch.takeSwaps.takeUnpair
      let late := ((early.fixExt.showMessages.sendDigest s.running).twinCompare.takeLaunch.streamBoundary).startTick
      exec .tickBoundary s = .next (late.trace 0 0x0001 [late.runState]).pump)
    ∧ (s.pwr.hub = false → exec .tickBoundary s = .next s)
    ∧ s.enterTick.cnt = s.cnt.plus s.totals ∧ (∀ x ∈ s.enterTick.faces, x.tot = Totals.zero)
    ∧ (s.nextTick = s.tk.tickCount.toNat + 1 → s.enterTick.mem = s.mem ∧ s.enterTick.sched = s.sched)

/-- Nothing that happens at a boundary moves TICK_COUNT but its first step: it grows by one, or takes the count of a new Pit's origin. -/
def Obligations.BoundaryAdvancesTickCount : Prop :=
  ∀ s t : State, s.pwr.hub = true → exec .tickBoundary s = .next t →
    t.tk.tickCount = BitVec.ofNat 64 s.nextTick ∧ (s.tk.originDue = false → t.tk.tickCount = s.tk.tickCount + 1)

/-- The halt boundary: HALT_TICK, CAUSE and REMOTE are those of the earliest halt due, a pending LAUNCH and every add group are gone,
and the Pit is STOPPED unless a Face still runs, which leaves it HALTING. (Log entry 156, the model's choice: a Face that stalls past
STALL_LIMIT does not count, for it stops here.) -/
def Obligations.HaltTakesEffectAtItsBoundary : Prop :=
  ∀ (s : State) (h : Halt), s.canHalt = true →
    earliestHalt (s.sched.halts.filter fun h => h.target == s.tk.tickCount.toNat) = some h →
    let t := s.takeHalt
    let goesOn := s.faces.any fun x => x.running && !(x.stall.isSome && decide (s.cfg.stallLimit.toNat < x.slip))
    t.tk.haltTick = s.tk.tickCount ∧ t.tk.cause = h.cause ∧ t.tk.remote = h.remote ∧ t.sched.halts = [] ∧ t.sched.launch = none
      ∧ t.mem.groups = [] ∧ t.tk.run = (if goesOn then .halting else .stopped)

/-- Once the last Face has stopped, HALTING ends: STOPPED, every pending HALT_AT answered, and what was in flight back in its queues. -/
def Obligations.LastFaceStopsThePit : Prop :=
  ∀ s : State, s.tk.haltTaken = true → s.anyRunning = false →
    exec .lastFaceStopped s = .next (((s.stopNow s.tk.haltTick.toNat).requeueFrom 0).sendFaces)
      ∧ ∃ t, exec .lastFaceStopped s = .next t ∧ t.tk.run = .stopped ∧ t.tk.haltTaken = false ∧ t.sched.haltAts = []

/-- LAUNCH takes effect at its boundary: RUNNING (or HALTING where a halt is already scheduled), the run's registers fresh, and every
Face's quires, finished-tile queue and carry store empty. -/
def Obligations.LaunchStartsTheRun : Prop :=
  ∀ (s : State) (l : PendLaunch), s.sched.launch = some l → s.tk.run = .armed → l.at_ = s.tk.tickCount.toNat →
    let t := s.takeLaunch
    t.tk.run = (if s.sched.halts = [] then .running else .halting) ∧ t.tk.launchAt = s.tk.tickCount ∧ t.tk.ext = 0
      ∧ t.tk.odcModule = 0 ∧ t.sched.launch = none
      ∧ (∀ x ∈ t.faces, x.units.setA = QuireSet.empty ∧ x.units.setB = QuireSet.empty ∧ x.units.queue = [] ∧ x.units.carry = [])

/-- A program's end: SLACK_MIN, and an overrun where the program used more cycles than its tick gave; a slipped Face goes on with its
next program, another stops. R224: under the halt policy the first overrun sends a halt notice with cause 2 for NOTICE ticks ahead and
announces no extension; under both policies an overrun changes no bits. (Log entry 131, the model's reading: which overrun is the first of
a run; log entry 132: how the cycles of an earlier tick count its extension.) -/
def Obligations.FaceProgramsEnd : Prop :=
  ∀ (s : State) (f : FaceId) (e : Nat),
    ((s.face f).running = false ∨ (s.face f).stall ≠ none → exec (.faceProgramEnd f e) s = .next s)
    ∧ ((s.face f).running = true → (s.face f).stall = none →
      let x := s.face f
      let u := s.tickCycles x.slip - 256
      let ends := fun (t : State) => t.updFace f fun y =>
        if s.lastProgram x then { y with running := false, slip := 0 } else { y with slip := y.slip - 1 }
      let s1 := s.updFace f fun x => x.slack e u
      let want := s.extBack x.slip + ceilDiv (10 * (e - u)) (frameTenths s.cfg.clockCur)
      let target := s.tk.tickCount.toNat + s.tk.notice.toNat
      (e ≤ u → exec (.faceProgramEnd f e) s = .next (ends s1))
      ∧ (u < e → s.cfg.haltPolicy = true → s.overran = false → exec (.faceProgramEnd f e) s = .next (ends (s1.noticeHalt 2 false))
        ∧ (s.canHalt = true → ∃ t, exec (.faceProgramEnd f e) s = .next t
          ∧ t.sched.halts = s.sched.halts ++ [⟨target, 2, false⟩]
          ∧ (1 < s.pitSize → s.class0 0x10 none (some (.halt ⟨s.fab.faddr, 2, BitVec.ofNat 64 target, false⟩)) ∈ t.fab.own)
          ∧ t.sched.exts = s.sched.exts ∧ t.tk.extKnown = s.tk.extKnown))
      ∧ (∀ t, exec (.faceProgramEnd f e) s = .next t → t.mem = s.mem ∧ (t.face f).units = (s.face f).units)
      ∧ (u < e → s.cfg.haltPolicy = true → s.overran = true → exec (.faceProgramEnd f e) s = .next (ends s1))
      ∧ (u < e → s.cfg.haltPolicy = false → want ≤ s.tk.extKnown ∨ 1023 ≤ s.tk.extKnown → exec (.faceProgramEnd f e) s = .next (ends s1))
      ∧ (u < e → s.cfg.haltPolicy = false → s.tk.extKnown < want → s.tk.extKnown < 1023 →
        ∃ t, exec (.faceProgramEnd f e) s = .next t ∧ t.tk.extKnown = Nat.min want 1023
          ∧ (1 < s.pitSize → s.class0 0x11 none (some (.ext ⟨s.fab.faddr, BitVec.ofNat 7 f.val, s.pit.rank.toNat, BitVec.ofNat 64 target,
            Nat.min want 1023, false⟩)) ∈ t.fab.own)
          ∧ t.sched.exts = s.sched.exts ++ [⟨target, Nat.min want 1023, s.fab.faddr, BitVec.ofNat 7 f.val, s.pit.rank.toNat⟩]))

/-- A slip beyond STALL_LIMIT raises its record (R225: a fatal one, with a halt notice of cause 3, under either policy), a stall ends
when what it waits for has come, and ODC.PIT follows a halt. -/
def Obligations.SlipsStallsAndDeviations : Prop :=
  ∀ (s : State) (f : FaceId) (others : List (BitVec 32)),
    ((s.face f).running = true → s.cfg.stallLimit.toNat < (s.face f).slip →
      exec (.faceSlipLimit f) s =
        .next ((s.raise 0x0402 (.face f.val) 0 (leBytes 4 ((s.face f).slip - 1))).updFace f s.giveUp)
      ∧ ∃ t e, exec (.faceSlipLimit f) s = .next t ∧ t.errs.raised = s.errs.raised ++ [e] ∧ e.code = 0x0402 ∧ e.cls = 3
        ∧ (s.canHalt = true →
          let target := s.tk.tickCount.toNat + s.tk.notice.toNat
          t.sched.halts = s.sched.halts ++ [⟨target, 3, false⟩]
          ∧ (1 < s.pitSize → s.class0 0x10 none (some (.halt ⟨s.fab.faddr, 3, BitVec.ofNat 64 target, false⟩)) ∈ t.fab.own)))
    ∧ ((s.face f).running = false ∨ (s.face f).slip ≤ s.cfg.stallLimit.toNat → exec (.faceSlipLimit f) s = .next s)
    ∧ (∀ c, (s.face f).stall = some c → (∀ i ∈ (s.face f).held, s.missing f (readRanges f i) = none) →
      exec (.faceStallEnd f) s = .next ((s.face f).held.foldl resumeOne (s.updFace f fun x => { x with stall := none, held := [] })))
    ∧ (∀ i, i ∈ (s.face f).held → s.missing f (readRanges f i) ≠ none → exec (.faceStallEnd f) s = .next s)
    ∧ ((s.face f).stall = none → exec (.faceStallEnd f) s = .next s)
    ∧ (s.tk.odcDue = true → exec (.odcPitUpdate others) s = .next { s with tk := { s.tk with
        odcPit := satAdd 32 0 ((others.map BitVec.toNat).foldl (· + ·) s.tk.odcModule.toNat), odcDue := false } })
    ∧ (s.tk.odcDue = false → exec (.odcPitUpdate others) s = .next s)

/-! ### What reads and writes memory -/

/-- A write of bytes reaches exactly its bytes and keeps the canonical form, and a read of consecutive bytes gives each byte of its
range. A poisoned granule keeps its poison until it is wholly written: a write that covers it clears it, any other leaves it. -/
def Obligations.MemoryReadsWhatWasWritten : Prop :=
  (∀ (m : Mem) (a : Nat) (b : List Byte) (marks : List Nat), Memory.wf m = true →
    Memory.wf (m.writeBytes a b marks) = true
      ∧ ∀ x, Cells.readByte (m.writeBytes a b marks).cells x
        = if a ≤ x ∧ x < a + b.length then b.getD (x - a) 0 else Cells.readByte m.cells x)
  ∧ (∀ (m : Mem) (a n : Nat), Memory.wf m = true → m.bytes a n = (List.range n).map fun i => Cells.readByte m.cells (a + i))
  ∧ ∀ (m : Mem) (a : Nat) (b : List Byte) (g : Nat), g ∈ m.poison →
    (g ∈ (m.writeBytes a b []).poison ↔ ¬(a ≤ g ∧ g + granSize g ≤ a + b.length))

/-- R48: a write of 1 to CONV_CNT_CTL.CLEAR clears the six counters at once, within the tick, and nothing else; the Faces' totals for
the tick in progress are added at the next boundary, so the counters then hold exactly that tick's events. -/
def Obligations.ConversionCountersClearAtOnce : Prop :=
  ∀ s : State, s.pwr.hub = true → s.csrDirect 0x0818 1 1 = s.clearConv ∧ ∃ t, exec .convCntCtlClear s = .next t
    ∧ t.cnt.infIn = 0 ∧ t.cnt.nanIn = 0 ∧ t.cnt.convRange = 0 ∧ t.cnt.convNar = 0 ∧ t.cnt.bpBad = 0 ∧ t.cnt.scaleClamp = 0
    ∧ t = { s with cnt := { t.cnt with spallFull := s.cnt.spallFull, spallMiss := s.cnt.spallMiss, fnFlush := s.cnt.fnFlush
                                       fnDomain := s.cnt.fnDomain, fnNotable := s.cnt.fnNotable, fnEmpty := s.cnt.fnEmpty } }
    ∧ t.enterTick.cnt.infIn = satAdd 32 0 s.totals.infIn ∧ t.enterTick.cnt.nanIn = satAdd 32 0 s.totals.nanIn
    ∧ t.enterTick.cnt.convRange = satAdd 32 0 s.totals.convRange ∧ t.enterTick.cnt.convNar = satAdd 32 0 s.totals.convNar
    ∧ t.enterTick.cnt.bpBad = satAdd 32 0 s.totals.bpBad ∧ t.enterTick.cnt.scaleClamp = satAdd 32 0 s.totals.scaleClamp

/-- A read that finds an uncorrectable error poisons its granule, counts it, and raises MEM_UE with the granule's address; a read of a
granule already poisoned only counts. Neither halts the Pit. -/
def Obligations.ReadsFindErrors : Prop :=
  ∀ (s : State) (u : EUnit) (a n : Nat),
    let t := s.noteReads u [(a, n)]
    let found := (s.mem.latentUe.filter (hitsAny [(a, n)])).filter fun g => !s.mem.poison.contains g
    (∀ g ∈ found, g ∈ t.mem.poison) ∧ (∀ g ∈ s.mem.poison, g ∈ t.mem.poison)
      ∧ t.mem.poisonRd = satAdd 32 s.mem.poisonRd (s.mem.poison.filter (hitsAny [(a, n)])).length
      ∧ t.mem.ue = satAdd 32 s.mem.ue found.length ∧ t.errs.raised.length = s.errs.raised.length + found.length
      ∧ (∀ g ∈ found, ∃ e ∈ t.errs.raised, e.code = 0x0301 ∧ e.addr = BitVec.ofNat 64 g)
      ∧ t.mem.cells = s.mem.cells ∧ t.tk = s.tk ∧ t.sched = s.sched

/-- The movers of a Face: a transfer that waits for nothing copies the bytes of its source, as the Face's program sees memory, to its
destination and leaves every other byte, where source and destination do not overlap and no open add group or bucket under way holds
them; one that must wait stalls the Face and is held. -/
def Obligations.MoverTransfersCopyOrWait : Prop :=
  ∀ (s : State) (f : FaceId) (o : MoveOp), s.wf = true → s.issues f = true → moverRule s f o = none →
    let waits := s.missing f [(o.src.toNat, o.bytes)]
    (∀ c, waits = some c →
      exec (.moverTransfer f o) s = .next (s.updFace f fun x => { x with stall := some c, held := [.moverTransfer f o] }))
    ∧ (waits = none → exec (.moverTransfer f o) s = .next (s.atView f fun s => s.moveNow f o))
    ∧ (let v := s.view f
      (overlap o.src.toNat o.dst.toNat o.bytes).2 = 0 → (∀ r ∈ s.openTargets, meets o.dst.toNat o.bytes r.1 r.2 = false) →
      (∀ b ∈ s.coll.buckets, b.broken = true
        ∨ (b.spoils true o.dst.toNat o.bytes = false ∧ b.spoils false o.src.toNat o.bytes = false)) →
      (∀ i, i < o.bytes →
        Cells.readByte (v.moveNow f o).mem.cells (o.dst.toNat + i) = Cells.readByte v.mem.cells (o.src.toNat + i))
      ∧ ∀ x, (x < o.dst.toNat ∨ o.dst.toNat + o.bytes ≤ x) →
        Cells.readByte (v.moveNow f o).mem.cells x = Cells.readByte v.mem.cells x)

/-- FABRIC_SEND forms class-2 packets of at most 4,064 bytes that carry its source in order; ATOMIC_ADD forms those of one contribution
with the elements, the last of them bringing its group, rank and marks. Both take the tick and the memory of the Face's program, and
neither changes a byte of memory. (Log entries 84, 94 and 158: how a contribution travels, where its fragments stand, and which tick a
slipped Face's packets name are the model's reading.) -/
def Obligations.FacesSendToTheFabric : Prop :=
  ∀ (s : State) (f : FaceId), s.wf = true → s.issues f = true →
    let v := s.view f
    (∀ o : SendOp, fabricSendRule s f o = none → s.missing f [(o.src.toNat, o.bytes)] = none →
      let pkts := v.sendPackets f o (v.mem.markedIn o.src.toNat o.bytes)
      (∃ t, exec (.fabricSend f o) s = .next t ∧ t.fab.own = s.fab.own ++ pkts
        ∧ ((∀ b ∈ s.coll.buckets, b.broken = true ∨ b.spoils false o.src.toNat o.bytes = false) →
          ∀ x, Cells.readByte t.mem.cells x = Cells.readByte s.mem.cells x))
      ∧ pkts.flatMap (·.body) = v.mem.bytes o.src.toNat o.bytes
      ∧ ∀ p ∈ pkts, p.kind = 0x01 ∧ p.cls = 2 ∧ p.bcast = false ∧ p.pit = s.pit.id ∧ p.dst = s.memberAt o.rank ∧ p.tag = o.tag
        ∧ p.tick = s.progTick f ∧ p.vis = BitVec.ofNat 4 o.vis ∧ p.body.length ≤ 4064 ∧ p.len.toNat = p.body.length)
    ∧ ∀ o : AtomicOp, atomicRule s f o = none → s.missing f (readRanges f (.atomicAdd f o)) = none →
      let c := v.contribution f o
      let pkts := v.contribPackets o c
      (∃ t, exec (.atomicAdd f o) s = .next t ∧ t.fab.own = s.fab.own ++ pkts
        ∧ ∀ x, Cells.readByte t.mem.cells x = Cells.readByte s.mem.cells x)
      ∧ c.group = o.group ∧ c.opened = s.progTick f ∧ c.rank = s.pit.rank.toNat ∧ c.tag = o.tag
      ∧ c.data = (contribAddrs f o).flatMap (fun a => v.mem.bytes a (addSize o.group.fmt))
      ∧ pkts.flatMap (·.body) = c.data ∧ (c.data ≠ [] → pkts.filterMap (·.load) = [.add c])
      ∧ ∀ p ∈ pkts, p.kind = 0x02 ∧ p.cls = 2 ∧ p.pit = s.pit.id ∧ p.dst = s.memberAt o.rank ∧ p.tag = o.tag ∧ p.tick = c.opened
        ∧ p.body.length ≤ 4064

/-- A class-2 landing-write packet waits in a landing buffer until its visibility tick, and one that is late reaches memory at once; one
for addresses that are no memory reaches none. A program of an earlier tick works on memory without the messages shown since, and they
stand over its effect afterwards (log entry 162, the model's reading). -/
def Obligations.LandingWritesWaitForTheirTick : Prop :=
  (∀ (s : State) (pkt : Packet),
    let l := landedOf pkt
    let s0 : State := { s with fab := { s.fab with delivered := s.fab.delivered.erase pkt } }
    let s1 : State := { s0 with mem := { s.mem with landing := s.mem.landing ++ [l] } }
    let ok := s.mem.rangeOk pkt.addr.toNat pkt.body.length && !touchesFixed s.strm.slotK.toNat pkt.addr.toNat pkt.body.length
    (pkt.cls = 1 ∨ pkt.kind ≠ 0x01 ∨ s.fab.delivered.contains pkt = false → exec (.landingWrite pkt) s = .next s)
    ∧ (pkt.cls ≠ 1 → pkt.kind = 0x01 → s.fab.delivered.contains pkt = true →
      (ok = false → exec (.landingWrite pkt) s = .next s0)
      ∧ (ok = true → s.tk.tickCount.toNat < (pkt.tick + pkt.vis.setWidth 64).toNat → exec (.landingWrite pkt) s = .next s1)
      ∧ (ok = true → (pkt.tick + pkt.vis.setWidth 64).toNat ≤ s.tk.tickCount.toNat →
        exec (.landingWrite pkt) s = .next (s1.showLanded l))))
  ∧ (∀ (s : State) (l : Landed) (x : Nat), s.wf = true →
    (∀ r ∈ s.openTargets, meets l.addr.toNat l.bytes.length r.1 r.2 = false) →
    (∀ b ∈ s.coll.buckets, b.broken = true ∨ b.spoils true l.addr.toNat l.bytes.length = false) →
    Cells.readByte (s.showLanded l).mem.cells x =
      if l.addr.toNat ≤ x ∧ x < l.addr.toNat + l.bytes.length then l.bytes.getD (x - l.addr.toNat) 0 else Cells.readByte s.mem.cells x)
  ∧ ∀ (s : State) (f : FaceId) (effect : State → State),
    ((s.face f).slip = 0 → s.view f = s ∧ s.atView f effect = effect s)
    ∧ ((s.face f).slip ≠ 0 → s.mem.ahead (s.progTick f) = [] → s.view f = s ∧ s.atView f effect = effect s)
    ∧ ((s.face f).slip ≠ 0 → s.wf = true → Memory.wf (effect (s.view f)).mem = true → ∀ x,
      Cells.readByte (s.atView f effect).mem.cells x =
        if ∃ p ∈ (s.mem.viewAt (s.progTick f)).2, ∃ i ∈ p.2.1, x = p.1.addr.toNat + i then Cells.readByte s.mem.cells x
        else Cells.readByte (effect (s.view f)).mem.cells x)

/-- A contribution that its last packet brings joins its group, opening it where it is the first; with an exact format, or in fast mode,
it is added on arrival; one beyond N is refused, counted and reported. A group whose N contributions have arrived is done: staged ones
are added in canonical order, and in fast mode ODC.MODULE counts the adds out of that order. (Which unit ADD_EXCESS names is the model's
choice, log entry 65; that one packet brings the whole contribution, log entry 84.) -/
def Obligations.AddGroupsTakeContributions : Prop :=
  ∀ (s : State) (g : AddGroup),
    (∀ (pkt : Packet) (c : Contribution), pkt.kind = 0x02 → s.fab.delivered.contains pkt = true → pkt.load = some (.add c) →
      let s0 : State := { s with fab := { s.fab with delivered := s.fab.delivered.erase pkt } }
      (s.running = false ∨ s.tk.haltTaken = true ∨ c.opened.toNat < s.tk.launchAt.toNat → exec (.addContribution pkt) s = .next s0)
      ∧ (s.running = true → s.tk.haltTaken = false → s.tk.launchAt.toNat ≤ c.opened.toNat →
        ((s.mem.groups.find? fun x => x.takes c) = some g →
          let s1 := (s0.setGroup { g with got := g.got ++ [c] }).spoilBuckets true g.desc.target.toNat (groupBytes g.desc)
          (g.got.length < g.desc.n → s.stages g.desc = false → exec (.addContribution pkt) s = .next (s1.addAll g.desc c))
          ∧ (g.got.length < g.desc.n → s.stages g.desc = true →
            exec (.addContribution pkt) s = .next (s1.freeFill g.desc.stage.toNat g.desc.stageBytes))
          ∧ (g.desc.n ≤ g.got.length → exec (.addContribution pkt) s = .next ((s0.setGroup { g with excess := g.excess + 1 }).raise 0x0104
              (s.adderUnit g.desc.target.toNat) 0 (leBytes 8 g.desc.target.toNat))))
        ∧ ((∀ x ∈ s.mem.groups, x.takes c = false) →
          exec (.addContribution pkt) s = exec (.addContribution pkt)
            { s with mem := { s.mem with groups := s.mem.groups ++ [⟨c.group, c.opened, [], 0, false⟩] } })))
    ∧ (∀ target : DevAddr, (s.mem.groups.find? fun g => g.desc.target == target && !g.done && decide (g.desc.n ≤ g.got.length)) = some g →
      let s1 := s.setGroup { g with done := true }
      (s.stages g.desc = true → exec (.addGroupComplete target) s = .next ((canonOrder g.got).foldl (fun s c => s.addAll g.desc c) s1))
      ∧ (s.stages g.desc = false → addRounded g.desc.fmt = true → exec (.addGroupComplete target) s = .next { s1 with tk := { s1.tk with
          odcModule := satAdd 32 s1.tk.odcModule (deviations g.got (canonOrder g.got)) } })
      ∧ (addRounded g.desc.fmt = false → exec (.addGroupComplete target) s = .next s1))

/-- Refresh changes nothing that a program sees, patrol reads a granule, a stack beyond its error limit goes out of the map, and the
ends of memory commands, of zeroing and of table loads reply. -/
def Obligations.MemoryUpkeepAndCompletions : Prop :=
  ∀ s : State,
    (∀ d : DieId, exec (.refreshSlot d) s = .next s)
    ∧ (∀ a : DevAddr, (s.mem.region (gran a.toNat)).isMem = true →
      ∃ u, exec (.patrolScrub a) s = .next (s.noteReads u [(gran a.toNat, granSize (gran a.toNat))]))
    ∧ (∀ a : DevAddr, (s.mem.region (gran a.toNat)).isMem = false → exec (.patrolScrub a) s = .next s)
    ∧ (∀ m : StackId, 16 < s.mem.stackErrs.getD m.val 0 → exec (.stackErrorLimit m) s = .next (s.stackOut m.val 2))
    ∧ (∀ m : StackId, s.mem.stackErrs.getD m.val 0 ≤ 16 → exec (.stackErrorLimit m) s = .next s)
    ∧ exec .hbmZeroingDone s = .next { s with mem := { s.mem with zeroing := false } }
    ∧ (∀ (key : CmdKey) (j : MemJob), (s.mem.jobs.find? fun j => j.tkt.key == key) = some j →
      let s1 : State := { s with mem := { s.mem with jobs := s.mem.jobs.filter fun x => x.tkt.key ≠ key } }
      (j.first = none → exec (.memCommandDone key) s = .next (s1.finish j.tkt .ok []))
      ∧ ∀ a, j.first = some a → exec (.memCommandDone key) s = .next (s1.finish j.tkt .memPoisoned (leBytes 8 a ++ leBytes 4 j.count)))
    ∧ (∀ (key : CmdKey) (failed : BitVec 96) (j : LoadJob), (s.loads.find? fun j => j.tkt.key == key) = some j →
      let bad := j.faces.filter fun f => failed.getLsbD f.val || !(s.face f).state.inService
      let s1 := j.faces.foldl (fun s f => s.updBanks f (j.onFace (!bad.contains f))) s
      let s2 : State := { s1 with loads := s1.loads.filter fun x => x.tkt.key ≠ key }
      (bad = [] → exec (.tableLoadDone key failed) s = .next (s2.finish j.tkt .ok []))
      ∧ ∀ f r, bad = f :: r → exec (.tableLoadDone key failed) s =
        .next (s2.finish j.tkt .notReady (leBytes 2 bad.length ++ [BitVec.ofNat 8 f.val] ++ zeros 5)))
/-! ### Instructions of the Faces -/

/-- Every instruction of a Face program. One whose operands break a rule of PROG_VERIFY is refused by that rule's number, since no loaded
program holds it; while its Face does not issue (log entry 30) it has no effect; where it reads what has not come its Face stalls and
holds it. One that goes answers a next state; unless it is a mover's, a send or an atomic add, it writes no byte outside its
destinations (its elements, the slots of their units, its records and status words), reaches no other Face, and raises no fatal record;
of its own Face it changes the units, the tick's totals and digests, and, for a drain that finds bad parity, PENDING_MAP with its repair
record. -/
def Obligations.FaceInstructionsRunInTheirFrame : Prop :=
  ∀ (s : State) (i : Instr) (f : FaceId), dataFace i = some f →
    (∀ r, brokenRule s i = some r → exec i s = .refused (.programRefused r))
    ∧ (brokenRule s i = none → s.issues f = false → exec i s = .next s)
    ∧ (∀ c, brokenRule s i = none → s.issues f = true → s.missing f (readRanges f i) = some c →
      exec i s = .next (s.updFace f fun x => { x with stall := some c, held := [i] }))
    ∧ (goes s i = true → ∃ t, exec i s = .next t ∧ (reachesOut i = false →
      t = { s with faces := t.faces, mem := t.mem, errs := t.errs, free := t.free
                   flash := { s.flash with repairs := t.flash.repairs } }
      ∧ ((∀ o, i ≠ .drain f o) → t.flash = s.flash ∧ (t.face f).pendingMap = (s.face f).pendingMap)
      ∧ (∀ g, g ≠ f → t.face g = s.face g)
      ∧ t.face f = { s.face f with units := (t.face f).units, tot := (t.face f).tot, digests := (t.face f).digests
                                   notableSeen := (t.face f).notableSeen, pendingMap := (t.face f).pendingMap }
      ∧ t.mem = { s.mem with
          cells := t.mem.cells, poison := t.mem.poison, latentUe := t.mem.latentUe, latentCe := t.mem.latentCe
          landing := t.mem.landing, ce := t.mem.ce, ue := t.mem.ue, poisonRd := t.mem.poisonRd, stackErrs := t.mem.stackErrs }
      ∧ (Memory.wf s.mem = true → ∀ x, outside x (storesTo i) = true → Cells.readByte t.mem.cells x = Cells.readByte s.mem.cells x)
      ∧ ∃ l, t.errs = { s.errs with raised := s.errs.raised ++ l } ∧ ∀ e ∈ l, e.cls < 3))

/-- The element-wise instructions: each reads its operands as its Face's program sees memory, forms one exact result for each element,
NaR where an operand is NaR, and writes it with one rounding, to its write stream and to its kept copy. A quotient by 0 and the root of a
negative value are NaR; a compare orders NaR below every real value. -/
def Obligations.ElementwiseInstructionsHaveTheirResults : Prop :=
  (∀ (s : State) (f : FaceId) (o : Vec2) (row : FaceId → Vec2 → Instr) (g : Rat → Rat → Rat),
    (row, g) ∈ ([(Instr.add, fun a b => a + b), (Instr.sub, fun a b => a - b), (Instr.mul, fun a b => a * b),
      (Instr.max, fun a b => if a < b then b else a), (Instr.min, fun a b => if a < b then a else b)] :
        List ((FaceId → Vec2 → Instr) × (Rat → Rat → Rat))) → goes s (row f o) = true →
    exec (row f o) s = .next (s.atView f (elementwise (val2 g) o.a [o.b] o.y o.cnt o.enc o.sr o.kept f)))
  ∧ (∀ (s : State) (f : FaceId) (o : Vec2), goes s (.div f o) = true →
    exec (.div f o) s = .next (s.atView f (elementwise divVal o.a [o.b] o.y o.cnt o.enc o.sr o.kept f)))
  ∧ (∀ (s : State) (f : FaceId) (o : Vec3), goes s (.muladd f o) = true →
    exec (.muladd f o) s =
      .next (s.atView f (elementwise (val3 fun a b c => a * b + c) o.a [o.b, o.c] o.y o.cnt o.enc o.sr o.kept f)))
  ∧ (∀ (s : State) (f : FaceId) (o : Vec1), goes s (.sqrt f o) = true → exec (.sqrt f o) s = .next (s.atView f (sqrtEffect f o)))
  ∧ (∀ (s : State) (f : FaceId) (o : Vec1), goes s (.abs f o) = true →
    exec (.abs f o) s = .next (s.atView f (unarySigned (fun q => if q < 0 then -q else q) f o)))
  ∧ (∀ (s : State) (f : FaceId) (o : Vec1), goes s (.neg f o) = true →
    exec (.neg f o) s = .next (s.atView f (unarySigned (fun q => -q) f o)))
  ∧ (∀ (s : State) (f : FaceId) (o : Vec2) (row : FaceId → Vec2 → Instr) (p : Val → Val → Bool),
    (row, p) ∈ ([(Instr.cmpEq, valEq), (Instr.cmpLt, valLt), (Instr.cmpLe, valLe)] :
      List ((FaceId → Vec2 → Instr) × (Val → Val → Bool))) → goes s (row f o) = true →
    exec (row f o) s = .next (s.atView f (compareEffect p f o)))
  ∧ (∀ a b : Rat, divVal [.fin a, .fin b] = (if b = 0 then Val.nar else .fin (a / b)) ∧ (a < 0 → rootRV (.fin a) = RV.of .nar)
    ∧ (0 ≤ a → (rootRV (.fin a)).root = some a ∧ (rootRV (.fin a)).v.isReal = true) ∧ rootRV .nar = RV.of .nar
    ∧ valEq (.fin a) (.fin b) = decide (a = b) ∧ valLt (.fin a) (.fin b) = decide (a < b) ∧ valLe (.fin a) (.fin b) = decide (a ≤ b)
    ∧ valLt .nar (.fin a) = true ∧ valLt (.fin a) .nar = false ∧ valEq .nar .nar = true ∧ valLe .nar .nar = true
    ∧ valEq .nar (.fin a) = false)

/-- ADD, SUB, MUL, MAX, MIN and DIV of posit streams into an unmasked posit stream without stochastic rounding: each destination element
holds the posit that R32 gives for the exact result of the two elements read before the instruction began, where the elements of the
destination do not overlap and a kept copy stays clear of them. -/
def Obligations.ArithmeticStoresRoundedResults : Prop :=
  ∀ (s : State) (f : FaceId) (o : Vec2) (row : FaceId → Vec2 → Instr) (op : List Val → Val) (a b : Stream) (n : Nat),
    (row, op) ∈ ([(Instr.add, val2 fun a b => a + b), (Instr.sub, val2 fun a b => a - b), (Instr.mul, val2 fun a b => a * b),
      (Instr.max, val2 ratMax), (Instr.min, val2 ratMin), (Instr.div, divVal)] : List ((FaceId → Vec2 → Instr) × (List Val → Val))) →
    goes s (row f o) = true → s.wf = true → o.a = .mem a → o.b = .mem b → o.cnt = none → o.sr = false → o.y.mask = none →
    (StreamFmt a.desc).isPosit = true → (StreamFmt b.desc).isPosit = true → dstFmt o.y = .posit8 ∧ n = 8 ∨ dstFmt o.y = .posit16 ∧ n = 16
      ∨ dstFmt o.y = .posit32 ∧ n = 32 →
    let ya := streamAddrs f o.y.st.desc
    (∀ i j, i < j → j < ya.length → ya.getD i 0 + n ≤ ya.getD j 0 ∨ ya.getD j 0 + n ≤ ya.getD i 0) →
    (∀ i, i < ya.length → ∀ k, k < n / 8 → outside (ya.getD i 0 / 8 + k) (keptRanges f o.kept) = true) →
    let v := s.view f
    let effect := elementwise op o.a [o.b] o.y none o.enc false o.kept f
    exec (row f o) s = .next (s.atView f effect) ∧ ∀ i, i < ya.length →
      (effect v).mem.nat (ya.getD i 0 / 8) (n / 8) = positEncode n
        (op [(scalarRd v.mem (StreamFmt a.desc) ((streamAddrs f a.desc).getD i 0)).v,
             (scalarRd v.mem (StreamFmt b.desc) ((streamAddrs f b.desc).getD i 0)).v])

/-- Conversions, quantisation, reductions and moves: CONVERT writes each value in the destination's format, QUANT rows of integers with
their records, INT_FINISH d × (acc − z × colsum − zw × rowsum + k × z × zw), SUM the lane sum, MAXR and MINR the winner and its
index, SELECT, COMPRESS and EXPAND whole elements bit for bit, QADD exact quire sums, TSW_TEST a summary, SPALL_CLEAR zeros. -/
def Obligations.ConversionsReductionsAndMoves : Prop :=
  ∀ (s : State) (f : FaceId),
    (∀ o, goes s (.convert f o) = true → exec (.convert f o) s = .next (s.atView f (convertEffect f o)))
    ∧ (∀ o, goes s (.quant f o) = true → exec (.quant f o) s = .next (s.atView f (quantEffect f o)))
    ∧ (∀ o, goes s (.intFinish f o) = true → exec (.intFinish f o) s = .next (s.atView f (intFinishEffect f o)))
    ∧ (∀ (acc d rowsum z cs zw : Rat) (nesc k : Nat), finishVal (.fin acc) ⟨.fin d, .fin rowsum, .fin z, nesc⟩ (.fin cs) (.fin zw) k [] false
        = .fin (d * (acc - z * cs - zw * rowsum + k * z * zw)))
    ∧ (∀ o, goes s (.sum f o) = true → exec (.sum f o) s = .next (s.atView f (sumEffect f o)))
    ∧ (∀ o, goes s (.maxr f o) = true → exec (.maxr f o) s = .next (s.atView f (redEffect (fun q p => decide (p < q)) f o)))
    ∧ (∀ o, goes s (.minr f o) = true → exec (.minr f o) s = .next (s.atView f (redEffect (fun q p => decide (q < p)) f o)))
    ∧ (∀ o, goes s (.select f o) = true → exec (.select f o) s = .next (s.atView f (selectEffect f o)))
    ∧ (∀ o, goes s (.compress f o) = true → exec (.compress f o) s = .next (s.atView f (compressEffect f o)))
    ∧ (∀ o, goes s (.expand f o) = true → exec (.expand f o) s = .next (s.atView f (expandEffect f o)))
    ∧ (∀ o, goes s (.qadd f o) = true → exec (.qadd f o) s = .next (s.atView f (qaddEffect f o)))
    ∧ (∀ o, goes s (.tswTest f o) = true → Memory.wf s.mem = true →
        let v := s.view f
        exec (.tswTest f o) s = .next (s.atView f (tswTestEffect f o)) ∧ (tswTestEffect f o v).mem.nat (spAddr f o.out.toNat) 4
          = tswSummary (v.mem.nat (spAddr f o.tsw.toNat) 8) (v.mem.nat (spAddr f o.tsw.toNat + 8) 8) % 2 ^ 32)
    ∧ (∀ id l, goes s (.spallClear f ⟨id, l⟩) = true → Memory.wf s.mem = true →
        exec (.spallClear f ⟨id, l⟩) s = .next (s.atView f (spallClearEffect f l)) ∧ ∀ u, u < l.units.toNat →
          ∀ x ∈ pageSlots (spallClearEffect f l (s.view f)).mem (pageAddr f l u) (slotsOf l.scode), x.valid = false)

/-- The winner of a reduction is the first element that no other element beats: the largest for MAXR, the least for MINR, at the lowest
index; and NaR, at the index of the first, where any element is NaR. -/
def Obligations.ReductionsFindTheFirstWinner : Prop :=
  ∀ (vs : List Val),
    (vs ≠ [] → (∀ v ∈ vs, v.isReal = true) →
      (∃ i q, winner (fun q p => decide (p < q)) vs 0 none = some (i, .fin q)
        ∧ vs[i]? = some (.fin q) ∧ (∀ v ∈ vs, v.toRat ≤ q) ∧ ∀ j, j < i → ∀ v, vs[j]? = some v → v.toRat < q)
      ∧ ∃ i q, winner (fun q p => decide (q < p)) vs 0 none = some (i, .fin q)
        ∧ vs[i]? = some (.fin q) ∧ (∀ v ∈ vs, q ≤ v.toRat) ∧ ∀ j, j < i → ∀ v, vs[j]? = some v → q < v.toRat)
    ∧ ∀ i, (∀ j, j < i → ∃ q, vs[j]? = some (.fin q)) → vs[i]? = some .nar → ∀ better, winner better vs 0 none = some (i, .nar)

/-- The function unit, the soft maximum, the normaliser, the gradients and the scan: every row runs, with its row formulas. A scan of one
step is the serial recurrence (R175). -/
def Obligations.FunctionUnitAndScan : Prop :=
  (∀ (s : State) (f : FaceId),
    (∀ o, goes s (.fnExp2 f o) = true → exec (.fnExp2 f o) s = .next (s.atView f (fnEffect f .exp2 o.a none o.y o.cnt o.kept)))
    ∧ (∀ o, goes s (.fnLog2 f o) = true → exec (.fnLog2 f o) s = .next (s.atView f (fnEffect f .log2 o.a none o.y o.cnt o.kept)))
    ∧ (∀ k o, goes s (.fnTab f k o) = true → exec (.fnTab f k o) s = .next (s.atView f (fnEffect f (.slot k) o.a none o.y o.cnt o.kept)))
    ∧ (∀ o, goes s (.fnGate f o) = true → exec (.fnGate f o) s = .next (s.atView f (fnEffect f o.f o.a (some o.g) o.y o.cnt o.kept)))
    ∧ (∀ o, goes s (.smax1 f o) = true → exec (.smax1 f o) s = .next (s.atView f (smax1Effect f o)))
    ∧ (∀ o, goes s (.smax2 f o) = true → exec (.smax2 f o) s = .next (s.atView f (smax2Effect f o)))
    ∧ (∀ o, goes s (.normStats f o) = true → exec (.normStats f o) s = .next (s.atView f (normStatsEffect f o)))
    ∧ (∀ o, goes s (.normApply f o) = true → exec (.normApply f o) s = .next (s.atView f (normApplyEffect f o)))
    ∧ (∀ o, goes s (.normGrad1 f o) = true → exec (.normGrad1 f o) s = .next (s.atView f (normGrad1Effect f o)))
    ∧ (∀ o, goes s (.normGrad2 f o) = true → exec (.normGrad2 f o) s = .next (s.atView f (normGrad2Effect f o)))
    ∧ (∀ o, goes s (.smaxGrad1 f o) = true → Memory.wf s.mem = true →
        let v := s.view f
        exec (.smaxGrad1 f o) s = .next (s.atView f (smaxGrad1Effect f o))
        ∧ ∀ r, (v.sgRead f o.yv o.dy o.mask o.cnt).1[0]? = some r →
          (smaxGrad1Effect f o v).mem.nat (spAddr f o.out.toNat) 4 = positEncode 32 (sgD (s.bstat f) r))
    ∧ (∀ o, goes s (.smaxGrad2 f o) = true → exec (.smaxGrad2 f o) s = .next (s.atView f (smaxGrad2Effect f o)))
    ∧ (∀ o, goes s (.gsScan f o) = true → exec (.gsScan f o) s = .next (s.atView f (gsScanEffect f o))))
  ∧ (∀ (ex : Rat → Rat × Nat) (m sum z : Rat) (row : List (Option Val)) (i : Nat), sum ≠ 0 → (∀ v, some v ∈ row → v.isReal = true) →
    row[i]? = some (some (.fin z)) →
    (smax2Row ex (.fin m) (.fin sum) row).1[i]? = some (.fin ((ex (r32 (z - m))).1 * r32 (1 / sum))))
  ∧ (∀ (ex : Rat → Rat × Nat) (m sum : Val) (row : List (Option Val)), some Val.nar ∈ row →
    (smax2Row ex m sum row).1 = row.map fun _ => .nar)
  ∧ (∀ (o : NormStatsOp) (xs : List Rat), o.rms = false → xs ≠ [] →
    ((normFields o (xs.map Val.fin)).flatMap posit32Bytes).take 8 =
      leBytes 4 (positRound 32 (sumRat xs / (xs.length : Nat))) ++
      leBytes 4 (positRound 32 (sumRat (xs.map fun x => x * x) / (xs.length : Nat) - sumRat xs / (xs.length : Nat) * (sumRat xs / (xs.length : Nat)))))
  ∧ (∀ (cz1 : Bool) (c d : Rat) (r : SgRow) (i : Nat) (y dy : Rat), r.real = true → r[i]? = some (true, .fin y, .fin dy) →
    (smaxGrad2Row cz1 (.fin c) (.fin d) r)[i]? = some (.fin (c * y * (if cz1 then r32 (dy - d) else dy - d))))
  ∧ (∀ (cz1 : Bool) (c d : Val) (r : SgRow), r.real = false ∨ c = .nar ∨ d = .nar → smaxGrad2Row cz1 c d r = r.map fun _ => .nar)
  ∧ ∀ (a x b c base i0 : Rat) (mk : Bool), (gsStates [mk] [.fin base] [.fin i0] [⟨.fin a, .fin x, [.fin b], [.fin c]⟩]).1
    = [[.fin (r32 (a * (if mk then i0 else base) + r32 (b * x)))]]

/-- The Bench: a read adds one row's exact dot products to its quire set and to no other, a load fills the shadow registers, a swap
exchanges active and shadow, a drain rounds and refills its set, and drained tiles enter the queue in order. -/
def Obligations.BenchInstructionsHaveTheirResults : Prop :=
  ∀ (s : State) (f : FaceId), f.val < s.faces.length →
    let x := s.face f
    (∀ (o : BenchRead) (row : FaceId → BenchRead → Instr) (trans : Bool),
      (row, trans) ∈ ([(Instr.benchForwardRead, false), (Instr.benchTransposedRead, true)] : List ((FaceId → BenchRead → Instr) × Bool)) →
      goes s (row f o) = true → ∃ t, exec (row f o) s = .next t ∧ (t.face f).units.set (!o.set) = x.units.set (!o.set)
        ∧ (t.face f).units.set o.set = benchRow x.units.active trans x.width x.column o ((s.view f).readStream f o.act none).1 (x.units.set o.set))
    ∧ (∀ o, goes s (.weightLoad f o) = true → ∃ t, exec (.weightLoad f o) s = .next t
      ∧ (t.face f).units = { x.units with shadow := (loadTile (s.view f).mem f x.width x.column o).1, loaded := true }
      ∧ (Memory.wf s.mem = true → ∀ y, Cells.readByte t.mem.cells y = Cells.readByte s.mem.cells y))
    ∧ (goes s (.weightSwap f) = true →
      exec (.weightSwap f) s = .next (s.atView f fun s => s.updUnits f fun u => { u with active := u.shadow, shadow := u.active }))
    ∧ (x.units.loaded = false → exec (.weightSwap f) s = .refused (.programRefused 89))
    ∧ (∀ o, goes s (.drain f o) = true → exec (.drain f o) s = .next (s.atView f (drainEffect f o x.width)))
    ∧ (∀ y r, goes s (.finishedTileQueued f) = true → x.units.pipe = y :: r → ∃ t, exec (.finishedTileQueued f) s = .next t
      ∧ (t.face f).units = { x.units with pipe := r, queue := x.units.queue ++ [y] })
    ∧ (goes s (.finishedTileQueued f) = true → x.units.pipe = [] → ∃ t, exec (.finishedTileQueued f) s = .next t ∧ t.face f = x)
    ∧ (∀ n, goes s (.keeperMac f n) = true → exec (.keeperMac f n) s = .next (s.atView f fun s => s))

/-- R33: widening a posit is exact and NaR stays NaR, narrowing rounds once by R32, a posit widened and narrowed again is unchanged, and
the worked encodings of the rule's table. A nonzero real value never rounds to zero and never to NaR. -/
def Obligations.PositConversionsAreExact : Prop :=
  (∀ n m p : Nat, (n, m) ∈ ([(8, 16), (8, 32), (16, 32)] : List (Nat × Nat)) →
    (p < 2 ^ n → positDecode m (positEncode m (positDecode n p)) = positDecode n p
      ∧ positEncode n (positDecode m (positEncode m (positDecode n p))) = p)
    ∧ (∀ q, positDecode m p = .fin q → positEncode n (positDecode m p) = positRound n q)
    ∧ positEncode m (positDecode n (2 ^ (n - 1))) = 2 ^ (m - 1) ∧ positEncode n (positDecode m (2 ^ (m - 1))) = 2 ^ (n - 1))
  ∧ (∀ (q : Rat) (a b c : Nat), (q, a, b, c) ∈ ([(0, 0, 0, 0), (1, 0x40, 0x4000, 0x40000000), (-1, 0xC0, 0xC000, 0xC0000000),
      (3, 0x4C, 0x4C00, 0x4C000000), (1 / 16, 0x20, 0x2000, 0x20000000), (41 / 4, 0x5A, 0x5A40, 0x5A400000),
      (100, 0x6A, 0x6A40, 0x6A400000), (1 / 2 ^ 24, 0x01, 0x0100, 0x01000000)] : List (Rat × Nat × Nat × Nat)) →
    positRound 8 q = a ∧ positRound 16 q = b ∧ positRound 32 q = c)
  ∧ (∀ n e : Nat, (n, e) ∈ ([(8, 24), (16, 56), (32, 120)] : List (Nat × Nat)) →
    positDecode n (2 ^ (n - 1) - 1) = .fin (2 ^ e) ∧ positDecode n 1 = .fin (1 / 2 ^ e) ∧ positDecode n (2 ^ (n - 1)) = .nar
    ∧ ∀ q : Rat, q ≠ 0 → positRound n q < 2 ^ n ∧ positRound n q ≠ 0 ∧ positRound n q ≠ 2 ^ (n - 1))

/-- R112: posit values are ordered as the two's-complement integers that their patterns form, so NaR equals NaR and is less than every
real value; CMP_EQ, CMP_LT and CMP_LE write mask bits by that order (a marked element reads as NaR); in a reduction NaR wins. -/
def Obligations.ComparesOrderPositsAsIntegers : Prop :=
  (∀ n a b : Nat, n ∈ [8, 16, 32] → a < 2 ^ n → b < 2 ^ n →
    valLt (positDecode n a) (positDecode n b) = decide (toSigned n a < toSigned n b)
    ∧ valEq (positDecode n a) (positDecode n b) = decide (toSigned n a = toSigned n b)
    ∧ valLe (positDecode n a) (positDecode n b) = decide (toSigned n a ≤ toSigned n b)
    ∧ positDecode n (2 ^ (n - 1)) = .nar ∧ (a ≠ 2 ^ (n - 1) → toSigned n (2 ^ (n - 1)) < toSigned n a))
  ∧ (∀ (s : State) (f : FaceId) (o : Vec2) (row : FaceId → Vec2 → Instr) (p : Int → Int → Bool) (a b : Stream) (n : Nat),
    (row, p) ∈ ([(Instr.cmpEq, fun x y => decide (x = y)), (Instr.cmpLt, fun x y => decide (x < y)),
      (Instr.cmpLe, fun x y => decide (x ≤ y))] : List ((FaceId → Vec2 → Instr) × (Int → Int → Bool))) →
    goes s (row f o) = true → s.wf = true → o.a = .mem a → o.b = .mem b → o.cnt = none → o.y.mask = none →
    (StreamFmt a.desc = .posit8 ∧ StreamFmt b.desc = .posit8 ∧ n = 8 ∨ StreamFmt a.desc = .posit16 ∧ StreamFmt b.desc = .posit16 ∧ n = 16
      ∨ StreamFmt a.desc = .posit32 ∧ StreamFmt b.desc = .posit32 ∧ n = 32) →
    let ya := streamAddrs f o.y.st.desc
    let pat := fun (x : Nat) => if s.mem.marked (x / 8) (n / 8) then 2 ^ (n - 1) else s.mem.bitsAt x n
    ya.Nodup → ∃ t, exec (row f o) s = .next t ∧ ∀ i, i < ya.length → t.mem.bitsAt (ya.getD i 0) 1 =
      b2n (p (toSigned n (pat ((streamAddrs f a.desc).getD i 0))) (toSigned n (pat ((streamAddrs f b.desc).getD i 0)))))
  ∧ ∀ (better : Rat → Rat → Bool) (vs : List Val), .nar ∈ vs → ∃ i, winner better vs 0 none = some (i, .nar)
/-! ### Collectives -/

/-- A pass of a bucket: a hop runs once its segment's packets are visible and the reservation has given it what it takes, and waits
before that (log entry 153: what it takes), each unit it forwards is the sum of what came and this member's contribution, the end of a
pass unarms the bucket and replies, a step missing STALL_LIMIT ticks after it was due is COLL_STALL, and a segment is staged only by an
armed bucket of its pass and definition. (The unit that COLL_STALL and SEG_MISMATCH name, and that a discard is counted per packet, are
the model's choices: log entries 65 and 62.) -/
def Obligations.CollectivePassesRun : Prop :=
  (∀ (s : State) (id : BitVec 12) (b : Bucket) (h : Bool), s.bucket id = some b →
    (s.hopGoes b h = true → exec (.addingHop id h) s = .next (((if (b.half h).pre then s.byteHop b h
      else if (b.half h).ag then s.gatherHop b h else s.reduceHop b h).withSegs id
        (b.segs.filter fun g => !(b.stepSegs ((b.half h).head h)).contains g)).joinHalves id))
    ∧ (s.hopGoes b h = false → exec (.addingHop id h) s = .next s)
    ∧ (∀ e, b.ended = some e → e ≤ s.tk.tickCount.toNat → b.state.armed = true → ∃ t b', exec (.collPassEnd id) s = .next t
      ∧ t.bucket id = some b' ∧ b'.state = .unarmed ∧ b'.endTick = BitVec.ofNat 64 e ∧ b'.segs = [] ∧ b'.tkt = none)
    ∧ ((∀ e, b.ended = some e → s.tk.tickCount.toNat < e) → exec (.collPassEnd id) s = .next s)
    ∧ (b.state = .running ∨ b.state = .prepass → s.pit.axes ≠ [] →
      (s.halfStalled b false = true → exec (.collStepTimeout id) s = .next
        (s.raise 0x0405 .module 0 (leBytes 2 id.toNat ++ [BitVec.ofNat 8 b.half0.phase, BitVec.ofNat 8 b.half0.step])))
      ∧ (s.halfStalled b false = false → s.halfStalled b true = true → exec (.collStepTimeout id) s = .next
        (s.raise 0x0405 .module 0 (leBytes 2 id.toNat ++ [BitVec.ofNat 8 b.half1.phase, BitVec.ofNat 8 b.half1.step])))
      ∧ (s.halfStalled b false = false → s.halfStalled b true = false → exec (.collStepTimeout id) s = .next s)))
  ∧ (∀ (d : BucketDesc) (me : FAddr) (agreed : Option Int) (inc : Incoming) (u : UnitVal) (r : UnitRd) (prior : List Origin),
    inc.unit.fmt = .posit32 → u.fmt = .posit32 → d.quar = false → (hopUnit d me agreed inc u r prior).unit
      = (positUnit inc.unit.idx (((unitRead inc.unit noLook).vals.zip r.vals).map fun x => Val.map2 (fun a b => a + b) x.1 x.2)).1)
  ∧ ∀ (s : State) (pkt : Packet), pkt.kind = 0x05 → s.fab.delivered.contains pkt = true →
    let s1 : State := { s with fab := { s.fab with delivered := s.fab.delivered.erase pkt } }
    let id := BitVec.ofNat 12 (leAt pkt.body 4 2)
    let detail := leBytes 2 (leAt pkt.body 4 2 % 4096) ++ zeros 2 ++ leBytes 4 (leAt pkt.body 8 4)
    (s.bucket id = none → exec (.collectiveSegment pkt) s = .next (s1.raise 0x0406 .module 0 detail))
    ∧ ∀ b, s.bucket id = some b →
      let mine := b.state.armed && leAt pkt.body 8 4 == b.pass.toNat && leAt pkt.body 16 8 == b.desc.digest.toNat
      (mine = true → exec (.collectiveSegment pkt) s = .next (s1.setBucket { b with segs := b.segs ++ [segmentOfPacket pkt] }))
      ∧ (mine = false → exec (.collectiveSegment pkt) s =
        .next ((s1.setBucket { b with mismatch := satInc 16 b.mismatch }).raise 0x0406 .module 0 detail))

/-! ### Links, packets, the timebase -/

/-- The states of a link: signal, training, hello, failure and retraining, each with its record where one is due. (A link that loses no
alignment fails where the port has itself counted sixteen failures of one flit: log entry 160, the model's reading.) -/
def Obligations.LinkEventsMoveThePort : Prop :=
  ∀ (s : State) (p : PortId), s.wf = true →
    (∀ st, ((s.setLink p st).port p).state = st)
    ∧ (s.pwr.main = true → (s.port p).state = .down → exec (.linkSignalDetect p) s = .next (s.setLink p .training))
    ∧ (s.pwr.main = false ∨ (s.port p).state ≠ .down → exec (.linkSignalDetect p) s = .next s)
    ∧ ((s.port p).state ≠ .disabled → exec (.linkSignalLoss p) s = .next (s.setLink p .down))
    ∧ ((s.port p).state = .disabled → exec (.linkSignalLoss p) s = .next s)
    ∧ ((s.port p).state = .training → exec (.linkTrained p) s = .next ((s.setLink p .hello).sendHello p))
    ∧ ((s.port p).state ≠ .training → exec (.linkTrained p) s = .next s)
    ∧ (∀ alignment, (s.port p).state.hellos = true → alignment = true ∨ (s.port p).worn = true → ∃ t, exec (.linkFail p alignment) s = .next t ∧ (t.port p).state = .failed
      ∧ (t.port p).downs = satInc 32 (s.port p).downs ∧ ∃ e ∈ t.errs.raised, e.code = (if s.running then 0x0403 else 0x0106)
        ∧ e.unit = 4 ∧ e.index = p.val)
    ∧ (∀ alignment, (s.port p).state.hellos = false ∨ (alignment = false ∧ (s.port p).worn = false) →
      exec (.linkFail p alignment) s = .next s)
    ∧ ((s.port p).state = .failed → exec (.linkRetrainTimer p) s = .next (s.setLink p .training))
    ∧ ((s.port p).state ≠ .failed → exec (.linkRetrainTimer p) s = .next s)
    ∧ ((s.port p).state.hellos = true → exec (.helloTimer p) s = .next
      (s.enqueue p true 0 [bareFlit 0 false true true 0 (s.helloPayload p)]))
    ∧ ((s.port p).state.hellos = false → exec (.helloTimer p) s = .next s)
    ∧ (∀ bytes, (s.port p).state.hellos = true → helloOk ((bytes.drop 32).take 64) = true → ∃ t, exec (.hello p bytes) s = .next t
      ∧ (t.port p).state = s.helloJudge p ((bytes.drop 32).take 64))
    ∧ (∀ bytes, (s.port p).state.hellos = true → helloOk ((bytes.drop 32).take 64) = false → exec (.hello p bytes) s = .next
      { s with fab := { s.fab with malformed := satInc 32 s.fab.malformed } })
    ∧ (∀ bytes, (s.port p).state.hellos = false → exec (.hello p bytes) s = .next s)

/-- Flits: a bad one is discarded and asks for a replay, sixteen failures of one flit in a row fail the link, the next in order is
accepted, and every sent flit has the next number and its own CRC and stays in the replay buffer until it is acknowledged. -/
def Obligations.FlitsAreNumberedAndReplayed : Prop :=
  ∀ (s : State) (p : PortId), s.wf = true →
    let x := s.port p
    let judged := fun (t : State) => if (t.port p).worn then t.linkFail p false else t
    (∀ f ok, x.state.hellos = false → exec (.flitReceive p f ok) s = .next s)
    ∧ (∀ f ok, x.state.hellos = true → ok = false ∨ f.crc ≠ flitCrc f → exec (.flitReceive p f ok) s =
      .next (judged (s.updPort p fun x => { x with nak := true, discard := true, fails := x.fails + 1 })))
    ∧ (∀ f ok, x.state.hellos = true → ok = false ∨ f.crc ≠ flitCrc f → 15 ≤ x.fails →
      ∃ t, exec (.flitReceive p f ok) s = .next t ∧ (t.port p).state = .failed)
    ∧ (∀ f ok, x.state.hellos = true → ok = false ∨ f.crc ≠ flitCrc f → x.fails < 15 → x.naks < 16 →
      ∃ t, exec (.flitReceive p f ok) s = .next t ∧ (t.port p).state = x.state)
    ∧ (∀ f, x.state.hellos = true → f.crc = flitCrc f → f.seq = x.nextSeq → exec (.flitReceive p f true) s = .next
      (judged (((s.updPort p fun x => x.takeAck f).updPort p fun x =>
        { x with rxSeq := f.seq, rxValid := true, discard := false, fails := 0 }).takeFlit p f)))
    ∧ (∀ f, x.state.hellos = true → f.crc = flitCrc f → f.seq ≠ x.nextSeq → 2048 ≤ (f.seq - x.nextSeq).toNat →
      exec (.flitReceive p f true) s = .next (judged (s.updPort p fun x => x.takeAck f)))
    ∧ (∀ f, x.state.hellos = true → f.crc = flitCrc f → f.seq ≠ x.nextSeq → (f.seq - x.nextSeq).toNat < 2048 →
      exec (.flitReceive p f true) s = .next (judged ((s.updPort p fun x => x.takeAck f).updPort p fun x =>
        { x with nak := x.nak || !x.discard, discard := true })))
    ∧ (∀ slot, x.state.hellos = false → exec (.flitSlot p slot) s = .next s)
    ∧ (∀ (slot : Fin 400) f r, x.state.hellos = true → slot.val ≠ 0 → slot.val ≠ 200 → x.resend = f :: r →
      exec (.flitSlot p slot) s = .next ((s.updPort p fun x => { x with resend := r }).emit (.flit p f)))
    ∧ (∀ slot : Fin 400, x.state.hellos = true → x.resend = [] ∨ slot.val = 0 ∨ slot.val = 200 → x.replay.length < 512 →
      ∃ t g, exec (.flitSlot p slot) s = .next t ∧ t.out = s.out ++ [.flit p g] ∧ g.seq = x.txSeq ∧ g.crc = flitCrc g
        ∧ (t.port p).txSeq = x.txSeq + 1 ∧ (t.port p).replay = x.replay ++ [g]
        ∧ (s.slotClass x slot.val = none → g.idle = true) ∧ (slot.val = 0 ∨ slot.val = 200 → x.q1 = (t.port p).q1 ∧ x.q2 = (t.port p).q2))
    ∧ (∀ slot : Fin 400, x.state.hellos = true → x.resend = [] ∨ slot.val = 0 ∨ slot.val = 200 → 512 ≤ x.replay.length →
      exec (.flitSlot p slot) s = .next s)

/-- Packets: ingress discards a malformed one, one of another Pit and one past its hops, each counted; one that goes on gains a hop, and is
discarded and counted where its port is not UP or it has no hop left; a packet for this module is delivered, and the class-1 and class-0
packets have their effects. (The bytes of a management reply, and that every delivered request gets one, are the model's choice: log
entries 23 and 119.) -/
def Obligations.PacketsReachTheirEnds : Prop :=
  ∀ (s : State) (k : Packet),
    (∀ p : PortId, s.fab.ingress.contains k = true →
      let s1 : State := { s with fab := { s.fab with ingress := s.fab.ingress.erase k } }
      let here := uniPort (s.uniEntry k.dst) (k.cls != 0)
      (malformed k = true → exec (.packetRoute (some p) k) s = .next s1.countMalformed)
      ∧ (malformed k = false → k.cls ≠ 0 → k.pit ≠ s.pit.id → exec (.packetRoute (some p) k) s = .next s1.countPitDrop)
      ∧ (malformed k = false → k.cls = 0 ∨ k.pit = s.pit.id → 63 ≤ k.hops.toNat →
        exec (.packetRoute (some p) k) s = .next s1.countHopDrop)
      ∧ (malformed k = false → k.cls = 0 ∨ k.pit = s.pit.id → k.hops.toNat < 63 → k.cls ≠ 0 ∨ (k.sroute = false ∧ k.bcast = false) →
        (here = 6 → heldKind k.kind = true →
          exec (.packetRoute (some p) k) s = .next { s1 with fab := { s1.fab with delivered := s1.fab.delivered ++ [k] } })
        ∧ (6 < here → exec (.packetRoute (some p) k) s = .next s1.countUnreach)
        ∧ ∀ q : PortId, here = q.val →
          ((s.port q).state ≠ .up → exec (.packetRoute (some p) k) s = .next s1.countUnreach)
          ∧ ((s.port q).state = .up → k.hops.toNat = 62 → exec (.packetRoute (some p) k) s = .next s1.countHopDrop)
          ∧ ((s.port q).state = .up → k.hops.toNat < 62 → exec (.packetRoute (some p) k) s = .next (s1.enqueue q false k.cls
            (packetFlits { k with hops := k.hops + 1, vc := k.vc || uniVcx (s.uniEntry k.dst) (k.cls != 0) })))))
    ∧ (∀ p : PortId, s.fab.ingress.contains k = false → exec (.packetRoute (some p) k) s = .next s)
    ∧ (s.fab.own.contains k = true → exec (.packetRoute none k) s = .next
      (({ s with fab := { s.fab with own := s.fab.own.erase k } } : State).routePacket true k))
    ∧ (s.fab.own.contains k = false → exec (.packetRoute none k) s = .next s)
    ∧ (s.fab.delivered.contains k = true →
      let s2 : State := { s with fab := { s.fab with delivered := s.fab.delivered.erase k } }
      (k.kind = 0x03 → exec (.commandPacket k) s = .next (s2.arrive (parsePacket (.fabric k.src) k.body)))
      ∧ (k.kind = 0x04 → landingFailure k.body = none → exec (.replyPacket k) s = .next s2)
      ∧ (∀ r e x, k.kind = 0x04 → landingFailure k.body = some r → s.exportTo k.src (BitVec.ofNat 16 (leAt k.body 0 2)) = some (e, x) →
        exec (.replyPacket k) s = .next (s2.exportFailed e x r))
      ∧ (∀ r, k.kind = 0x04 → landingFailure k.body = some r → s.exportTo k.src (BitVec.ofNat 16 (leAt k.body 0 2)) = none →
        exec (.replyPacket k) s = .next s2)
      ∧ ∀ p : PortId, k.kind = 0x14 → ∃ t r, exec (.management p k) s = .next t
        ∧ t = { s2 with fab := { s2.fab with own := s.fab.own ++ [r] } } ∧ r.dst = k.src ∧ r.src = s.fab.faddr ∧ r.cls = k.cls
        ∧ r.kind = 0x14 ∧ r.body.length ≤ 224)
    ∧ (s.fab.delivered.contains k = false → exec (.commandPacket k) s = .next s ∧ exec (.replyPacket k) s = .next s
      ∧ ∀ p : PortId, exec (.management p k) s = .next s)

/-- Class-0 messages of the Pit: a halt notice schedules its halt and an extension is kept for its tick, unless their tick has come, when
they are counted late with C0_LATE's fatal record; a power event of another member is recorded and halts the Pit by notice with cause 6;
a twin's digests are kept for comparison. Messages of another Pit, and packets that were not delivered here, do nothing more. (What a
message's packet carries for its body is the model's choice: log entry 84.) -/
def Obligations.PitMessagesTakeEffect : Prop :=
  ∀ (s : State) (k : Packet),
    let s1 : State := { s with fab := { s.fab with delivered := s.fab.delivered.erase k } }
    (s.fab.delivered.contains k = false → exec (.haltNotice k) s = .next s ∧ exec (.extensionAnnouncement k) s = .next s
      ∧ exec (.twinDigest k) s = .next s)
    ∧ (∀ src pit, (∀ x ∈ s.fab.delivered, x.kind = 0x13 → x.src = src → x.pit ≠ pit) → exec (.powerEvent src pit) s = .next s)
    ∧ (s.fab.delivered.contains k = true →
      (∀ n : HaltNotice, k.kind = 0x10 → k.load = some (.halt n) →
        (s.ownPit k.pit = true → n.src ≠ s.fab.faddr → s.twin.paired = false → n.relay = false →
          (s.tk.tickCount.toNat < n.target.toNat → exec (.haltNotice k) s = .next (s1.schedHalt n.target.toNat n.cause true))
          ∧ (n.target.toNat ≤ s.tk.tickCount.toNat → exec (.haltNotice k) s = .next (s1.lateClass0 0x10 n.target)))
        ∧ (s.ownPit k.pit = false ∨ n.src = s.fab.faddr → exec (.haltNotice k) s = .next s1))
      ∧ (∀ n : ExtAnn, k.kind = 0x11 → k.load = some (.ext n) →
        (s.ownPit k.pit = true → n.src ≠ s.fab.faddr → s.twin.paired = false → n.relay = false →
          (s.tk.tickCount.toNat < n.target.toNat →
            exec (.extensionAnnouncement k) s = .next (s1.addExt n.target.toNat n.ext n.src n.face n.rank))
          ∧ (n.target.toNat ≤ s.tk.tickCount.toNat → exec (.extensionAnnouncement k) s = .next
              ((s1.addExt (s.tk.tickCount.toNat + 1) n.ext n.src n.face n.rank).lateClass0 0x11 n.target)))
        ∧ (s.ownPit k.pit = false ∨ n.src = s.fab.faddr → exec (.extensionAnnouncement k) s = .next s1))
      ∧ (s.powerEvent k.src k.pit = some k →
        (k.src ≠ s.fab.faddr →
          exec (.powerEvent k.src k.pit) s = .next ((s1.raise 0x010B .module 0 (leBytes 2 k.src.toNat)).noticeHalt 6 true))
        ∧ (k.src = s.fab.faddr → exec (.powerEvent k.src k.pit) s = .next s1))
      ∧ (∀ (m : TwinMsg) (d : BitVec 64), k.kind = 0x12 → k.load = some (.twin m) → m.body = .module d →
        (s.twin.paired = true → s.ownPit k.pit = true → k.src = s.twin.partner → ∃ t, exec (.twinDigest k) s = .next t
          ∧ (m.tick.toNat, d) ∈ t.twin.theirs ∧ t = { s1 with twin := { s.twin with theirs := t.twin.theirs } })
        ∧ (s.twin.paired = false → exec (.twinDigest k) s = .next s1)))

/-- The timebase: FRAME_COUNT advances by one a frame once it is locked and reads 0 before, a marker updates what is known of its sender,
a drift beyond 20 ns of a locked neighbour is TIME_DRIFT, and a module locks as master at one frame past the highest count it has seen. -/
def Obligations.TimebaseSteps : Prop :=
  ∀ s : State, s.wf = true →
    (∀ clock, s.pwr.hub = true → ∃ t, exec (.frameBoundary clock) s = .next t
      ∧ t.tk.frameCount = (if s.fab.locked then s.tk.frameCount + 1 else 0) ∧ t.tk.localFrame = s.tk.localFrame + 1
      ∧ t.tk.tickCount = s.tk.tickCount ∧ t.mem = s.mem ∧ t.faces = s.faces ∧ t.sched = s.sched)
    ∧ (∀ clock, s.pwr.hub = false → exec (.frameBoundary clock) s = .next s)
    ∧ (∀ (p : PortId) (m : Marker), (s.port p).state.hellos = true → ∃ t, exec (.frameMarker p m) s = .next t
      ∧ (t.port p).nbrTime = m.locked ∧ (t.port p).nbrDepth = m.depth ∧ (t.port p).nbrMaster = m.master ∧ (t.port p).lastRecv = m.arrived
      ∧ t.fab.maxFrame = (if s.fab.maxFrame.toNat < m.frame.toNat then m.frame else s.fab.maxFrame)
      ∧ (s.fab.locked = true → m.locked = true → (s.port p).state = .up → 1280 < (markerOffset (s.port p) m).natAbs →
        ∃ e ∈ t.errs.raised, e.code = 0x0401 ∧ e.unit = 4 ∧ e.index = p.val))
    ∧ (∀ (p : PortId) (m : Marker), (s.port p).state.hellos = false → exec (.frameMarker p m) s = .next s)
    ∧ (s.fab.locked = true → exec .timebaseLock s = .next s)
    ∧ (s.fab.locked = false → s.fab.master = true → ∃ t, exec .timebaseLock s = .next t ∧ t.fab.locked = true ∧ t.fab.masterAct = true
      ∧ t.fab.depth = 0 ∧ t.tk.frameCount = s.fab.maxFrame + 1)
    ∧ (s.fab.locked = false → s.fab.master = false → s.bestParent = none → exec .timebaseLock s = .next s)
    ∧ (∀ p, s.fab.locked = false → s.fab.master = false → s.bestParent = some p → ∃ t, exec .timebaseLock s = .next t
      ∧ t.fab.locked = true ∧ t.tk.frameCount = s.fab.maxFrame)

/-! ### Power, heat, leaks -/

/-- Bring-up: standby and the Weighbridge, main power where its inputs allow it, the hub die, the dies, the power-on tests, the stacks and
the PCIe link, each only after what it needs. -/
def Obligations.PowerComesUpInOrder : Prop :=
  ∀ s : State,
    (∀ ok, ∃ t, exec (.weighbridgeBoot ok) s = .next t ∧ t.pwr.standby = true ∧ t.pwr.weighbridge = true ∧ t.pwr.main = s.pwr.main
      ∧ t.faces = s.faces ∧ t.mem = s.mem ∧ (s.pwr.weighbridge = false → t.pwr.chainAddr = 0x7F ∧ t.fw.relaySent = 0))
    ∧ (∀ vMain vStby inlet, s.mayEnable = true → within vMain 40 60 = true → within vStby (46 / 10) 1000000 = true → above inlet 40 = false →
      exec (.mainEnable vMain vStby inlet) s = .next { s with pwr := { s.pwr with ramping := true, thermHold := false } })
    ∧ (∀ vMain vStby inlet, s.mayEnable = false ∨ within vMain 40 60 = false ∨ within vStby (46 / 10) 1000000 = false ∨ above inlet 40 = true →
      exec (.mainEnable vMain vStby inlet) s = .next s)
    ∧ (s.pwr.ramping = true → exec .mainRampDone s = .next { s with
        pwr := { s.pwr with main := true, ramping := false }, faces := List.zipWith Face.powerOn s.faces s.flash.repairs })
    ∧ (s.pwr.ramping = false → exec .mainRampDone s = .next s)
    ∧ (s.pwr.main = true → s.pwr.hub = false → exec .hubStartDone s = .next
        ({ s with pwr := { s.pwr with hub := true, derrick := true } } : State).pump)
    ∧ (s.pwr.main = false ∨ s.pwr.hub = true → exec .hubStartDone s = .next s)
    ∧ (s.pwr.hub = true → exec .dieStartDone s = .next { s with pwr := { s.pwr with dies := 0xFF } })
    ∧ (s.pwr.hub = false → exec .dieStartDone s = .next s)
    ∧ (∀ res, s.wf = true → s.pwr.dies ≠ 0 → ∃ t, exec (.powerOnBistDone res) s = .next t
      ∧ ∀ f, t.face f = if (s.face f).state = .testing ∧ s.underBist f = false then (s.face f).post (postOf res f)
        else if (s.face f).state = .testing ∧ (s.face f).prior = .testing then (s.face f).postUnder (postOf res f) else s.face f)
    ∧ (∀ res, s.pwr.dies = 0 → exec (.powerOnBistDone res) s = .next s)
    ∧ (∀ m : StackId, s.pwr.dies ≠ 0 → s.pwr.trained.getLsbD m.val = false → s.pwr.tries.getD m.val 0 < 2 →
      (exec (.hbmTrainingDone m true) s = .next { s with
        pwr := { s.pwr with trained := s.pwr.trained ||| BitVec.ofNat 16 (2 ^ m.val) }
        mem := { s.mem with hbmLive := s.mem.hbmLive ||| BitVec.ofNat 16 (2 ^ m.val) } })
      ∧ ∃ t, exec (.hbmTrainingDone m false) s = .next t ∧ t.pwr.tries = s.pwr.tries.set m.val (s.pwr.tries.getD m.val 0 + 1)
        ∧ t.mem = s.mem ∧ t.errs.raised.length = s.errs.raised.length + s.pwr.tries.getD m.val 0)
    ∧ exec .perstNRelease s = .next { s with pwr := { s.pwr with perstN := true } }
    ∧ (s.pwr.hub = true → s.pwr.perstN = true → exec .pcieLinkUp s = .next { s with pwr := { s.pwr with host := true } })
    ∧ (s.pwr.hub = false ∨ s.pwr.perstN = false → exec .pcieLinkUp s = .next s)
    ∧ exec .pcieLinkDown s = .next { s with pwr := { s.pwr with host := false } }
    ∧ (∀ (f : FaceId) (unit : Byte), (s.face f).state.inService = true → exec (.faceCheckerFault f unit) s = .next
      ((s.updFace f fun x => { x with state := .faulty, cause := 7, running := false, stall := none, held := [], slip := 0 }).raise 0x0407
        (.face f.val) 0 [unit]))
    ∧ (∀ (f : FaceId) (unit : Byte), (s.face f).state.inService = false → exec (.faceCheckerFault f unit) s = .next s)

/-- A sag of the supply raises BULK_LOW, which halts the Pit, and tells its other members; at the stop level, on an open input switch's
loss, or without standby power the regulators stop, and everything volatile is lost. The comparator acts while the regulators ramp too
(log entry 166, the model's reading). -/
def Obligations.PowerLossesStopTheModule : Prop :=
  ∀ s : State,
    (s.powerOff.pwr.main = false ∧ s.powerOff.pwr.hub = false ∧ s.powerOff.pwr.standby = s.pwr.standby ∧ s.powerOff.pit = Pit.reset
      ∧ s.powerOff.tk.run = .stopped ∧ s.powerOff.mem.cells = [] ∧ s.powerOff.errs.log = s.errs.log ∧ s.powerOff.flash = s.flash
      ∧ ∀ x ∈ s.powerOff.faces, x.state = .off)
    ∧ (∀ v, s.anyPower = true → s.pwr.sag = false →
      exec (.bulkLowDetect v) s = .next (({ s with pwr := { s.pwr with sag := true } } : State).bulkLow v))
    ∧ (∀ v, s.anyPower = false ∨ s.pwr.sag = true → exec (.bulkLowDetect v) s = .next s)
    ∧ (∀ v, (∃ e ∈ (s.bulkLow v).errs.raised, e.code = 0x0408 ∧ e.cls = 3)
      ∧ (s.canHalt = true → ⟨s.tk.tickCount.toNat + 1, 6, false⟩ ∈ (s.bulkLow v).sched.halts)
      ∧ (1 < s.pitSize → s.class0 0x13 none none ∈ (s.bulkLow v).fab.own))
    ∧ (s.anyPower = true → exec .regulatorStop s = .next s.powerOff ∧ exec .mainPowerLoss s = .next s.powerOff
      ∧ (s.pwr.stopStandby = true → exec .standbyLowStopTimer s = .next s.powerOff))
    ∧ (s.anyPower = false → exec .regulatorStop s = .next s ∧ exec .mainPowerLoss s = .next s ∧ exec .standbyLowStopTimer s = .next s)
    ∧ (s.pwr.stopStandby = false → exec .standbyLowStopTimer s = .next s)
    ∧ (s.anyPower = true → exec .sagClear s = .next { s with pwr := { s.pwr with sag := false } })
    ∧ (s.anyPower = false → exec .sagClear s = .next s)
    ∧ (s.anyPower = true → exec .mainInputRestore s = .next s)
    ∧ (s.anyPower = false →
      let may := s.mayRestart && suppliesOk s.pwr.block.vStby (sensorOf s.pwr.block 0)
      (may = true → exec .mainInputRestore s =
        .next { s with pwr := { s.pwr with sag := false, switchOpen := false, ramping := true, thermHold := false } })
      ∧ (may = false → exec .mainInputRestore s = .next { s with pwr := { s.pwr with sag := s.pwr.sag && s.pwr.switchOpen } }))
    ∧ (∀ v, s.anyPower = true → s.pwr.switchOpen = false →
      let s1 : State := { s with pwr := { s.pwr with switchOpen := true } }
      exec (.overcurrent v) s = .next (if s.pwr.sag then s1 else ({ s1 with pwr := { s1.pwr with sag := true } } : State).bulkLow v))
    ∧ (∀ v, s.anyPower = false ∨ s.pwr.switchOpen = true → exec (.overcurrent v) s = .next s)
    ∧ exec .highInput s = .next { s with errs := { s.errs with alertHigh := true } }
    ∧ exec .highInputEnd s = .next { s with errs := { s.errs with alertHigh := false } }
    ∧ (∀ v, s.anyPower = true → s.pwr.stopStandby = false →
      exec (.standbyLow v) s = .next (({ s with pwr := { s.pwr with stopStandby := true } } : State).bulkLow v))
    ∧ (∀ v, s.anyPower = false ∨ s.pwr.stopStandby = true → exec (.standbyLow v) s = .next s)
    ∧ ∃ t, exec .standbyPowerLoss s = .next t ∧ t.pwr.standby = false ∧ t.pwr.main = false ∧ t.mem.cells = [] ∧ t.flash = s.flash
      ∧ (s.pwr.weighbridge = true → t.errs.log.length = Nat.min 4096 (s.errs.log.length + s.errs.raised.length) ∨ 4096 < s.errs.log.length)

/-- The thermal limits and the leak rope: a reading past its stop limit stops the regulators, at once where no Pit runs; one past its halt
limit for the time required raises THERMAL, once an excursion; a leak raises LEAK and holds main power off for 60 s after it ends, and
LEAK_N follows what the poll sees of the rope. -/
def Obligations.HeatAndLeaksStopTheModule : Prop :=
  ∀ s : State,
    (∀ r, s.pwr.weighbridge = true → ∃ t, exec (.sensorPoll r) s = .next t ∧ t.pwr.block = r
      ∧ t.leakN = r.rope ∧ t.pwr.leakOwn = r.rope ∧ t.pwr.leakExt = r.leakIn
      ∧ (∀ own : Bool, (if own then r.rope else r.leakIn) = true → (if own then s.pwr.leakOwn else s.pwr.leakExt) = false →
        t.pwr.leakHold = true ∧ ∃ e ∈ t.errs.raised, e.code = 0x040A ∧ e.detail = padTo 16 [if own then 0 else 1])
      ∧ ((∀ n, n < 30 → pastStop r n = false ∧ pastHalt r n 0 = false) → (∀ n, n < 30 → n ∉ t.pwr.latched) ∧ t.pwr.main = s.pwr.main)
      ∧ (∀ n, n < 30 → pastStop r n = true → n ∈ t.pwr.latched ∧ t.pwr.thermHold = true
        ∧ (s.anyPower = true → s.quiet = true → t.pwr.main = false ∧ t.pwr.ramping = false)
        ∧ (s.anyPower = true → s.quiet = false → t.pwr.stopThermal = true ∧ t.pwr.main = s.pwr.main)))
    ∧ (∀ r, s.pwr.weighbridge = false → exec (.sensorPoll r) s = .next s)
    ∧ (∀ (n : Fin 30) v, s.pwr.weighbridge = true → pastHalt { s.pwr.block with temps := s.pwr.block.temps.set n.val v } n.val 0 = true →
      s.pwr.latched.contains n.val = false → ∃ t, exec (.thermalHaltPersist n v) s = .next t ∧ n.val ∈ t.pwr.latched
        ∧ (∃ e ∈ t.errs.raised, e.code = 0x0409) ∧ (s.canHalt = true → ⟨s.tk.tickCount.toNat + 1, 5, false⟩ ∈ t.sched.halts))
    ∧ (∀ (n : Fin 30) v, s.pwr.weighbridge = false ∨ s.pwr.latched.contains n.val = true → exec (.thermalHaltPersist n v) s = .next s)
    ∧ (s.pwr.stopThermal = true → s.anyPower = true → exec .thermalStopTimer s = .next s.powerOff)
    ∧ (s.pwr.stopThermal = false ∨ s.anyPower = false → exec .thermalStopTimer s = .next s)
    ∧ (∀ own, s.pwr.weighbridge = true → (if own then s.pwr.leakOwn else s.pwr.leakExt) = false → ∃ t, exec (.leakDetect own) s = .next t
      ∧ t.pwr.leakHold = true ∧ (s.anyPower = true → t.pwr.stopLeak = true) ∧ t.mayEnable = false
      ∧ ∃ e ∈ t.errs.raised, e.code = 0x040A ∧ e.detail = padTo 16 [if own then 0 else 1])
    ∧ (∀ own, s.pwr.weighbridge = false ∨ (if own then s.pwr.leakOwn else s.pwr.leakExt) = true → exec (.leakDetect own) s = .next s)
    ∧ (s.pwr.stopLeak = true → s.anyPower = true → exec .leakStopTimer s = .next s.powerOff)
    ∧ (s.pwr.stopLeak = false ∨ s.anyPower = false → exec .leakStopTimer s = .next s)
    ∧ exec .leakClearTimer s = .next { s with pwr := { s.pwr with leakOwn := false, leakExt := false, leakHold := false } }

/-! ### The management Ethernet, the chain and the host -/

/-- A management datagram reaches the Weighbridge or the Derrick or waits its turn, a formed firmware datagram joins its piece's buffer,
and the enumeration train sets the chain address one below its pulses and passes on one more. -/
def Obligations.ManagementAndChain : Prop :=
  ∀ s : State,
    (∀ a bytes, s.pwr.weighbridge = false → exec (.mgmtDatagram a bytes) s = .next s)
    ∧ (∀ a bytes, s.pwr.weighbridge = true →
      let r := parsePacket (.mgmt a) bytes
      let ready := s.mayCheck r && !s.host.waiting.any fun v => samePath v.2.path r.pk.path
      (s.pwr.derrick = false ∨ ready = true → exec (.mgmtDatagram a bytes) s = .next (s.check acceptOf r))
      ∧ (s.pwr.derrick = true → ready = false → exec (.mgmtDatagram a bytes) s = .next
        { s with host := { s.host with waiting := s.host.waiting ++ [(r.code, r.pk)] } }))
    ∧ (∀ b, s.pwr.weighbridge = true → b.length = 1040 → leAt b 8 4 % 1024 = 0 → leAt b 8 4 < pieceLen → zeroAt b 12 4 = true →
      ∃ t x rest, exec (.fwDatagram b) s = .next t ∧ t.fw.bufs = x :: rest ∧ x.id = BitVec.ofNat 32 (leAt b 0 4)
        ∧ x.piece = BitVec.ofNat 32 (leAt b 4 4) ∧ (leAt b 8 4 / 1024, b.drop 16) ∈ x.parts ∧ t.fw.bufs.length ≤ 4
        ∧ t = { s with fw := { s.fw with bufs := t.fw.bufs } })
    ∧ (∀ b, s.pwr.weighbridge = false ∨ b.length ≠ 1040 ∨ leAt b 8 4 % 1024 ≠ 0 ∨ pieceLen ≤ leAt b 8 4 ∨ zeroAt b 12 4 = false →
      exec (.fwDatagram b) s = .next s)
    ∧ (∀ k, s.pwr.weighbridge = true → 0 < k → exec (.enumerationTrain k) s = .next
      (({ s with pwr := { s.pwr with chainAddr := BitVec.ofNat 8 (k - 1) } } : State).emit (.pulses (k + 1))))
    ∧ (∀ k, s.pwr.weighbridge = false ∨ k = 0 → exec (.enumerationTrain k) s = .next s)
    ∧ exec .chainEnumTimeout s = .next { s with pwr := { s.pwr with chainAddr := 0x7F } }

/-- The host's accesses: a doorbell past its queue's size sets the queue's error, a good one moves its index, and the Derrick goes on; an
aligned CSR access of 4 or 8 bytes reads or writes its register and any other is answered as unsupported, or by NACK on the chain; with the
hub die off the chain reads the standby registers and answers NOT_READY for the others (log entry 124: the form is judged first, and a
write then does nothing); the live fields act at once while the hub die is up; the BAR4 window reads and writes device memory. -/
def Obligations.HostAccessesTakeEffect : Prop :=
  ∀ s : State,
    (s.pwr.derrick = false → s.pump = s)
    ∧ (∀ (q : QueueId) (v : BitVec 32),
      ((s.queue q).sqSize ≤ v.toNat → exec (.sqDoorbell q v) s = .next (s.updQueue q fun x => { x with error := true }))
      ∧ (v.toNat < (s.queue q).sqSize → exec (.sqDoorbell q v) s = .next (s.updQueue q fun x => { x with sqTail := v }).pump)
      ∧ ((s.queue q).cqSize ≤ v.toNat → exec (.cqDoorbell q v) s = .next (s.updQueue q fun x => { x with error := true }))
      ∧ (v.toNat < (s.queue q).cqSize → (s.queue q).held = [] → s.wf = true →
        exec (.cqDoorbell q v) s = .next (s.updQueue q fun x => { x with cqHead := v }).pump)
      ∧ exec (.queuePcieError q) s = .next (s.updQueue q fun x => { x with error := true })
      ∧ ∀ on, exec (.queueEnable q on) s = .next (s.updQueue q fun x => x.setEnable on).pump)
    ∧ (∀ path off n,
      let up := match path with | .bar0 => s.pwr.hub | .chain => s.pwr.weighbridge
      let reach := s.pwr.hub || !hubRegisters (off - off % 8) 1
      (up = false → ∀ v, exec (.csrWrite path off n v) s = .next s)
      ∧ (up = true → csrForm off n = false →
        ∀ v, exec (.csrWrite path off n v) s = .next (s.emit (match path with | .bar0 => .unsupported | .chain => .nack)))
      ∧ (up = true → csrForm off n = true → reach = true →
        exec (.csrWrite path off n none) s =
          .next (s.emit (.csrData path (leBytes n (s.csr64 (off - off % 8) / 2 ^ (8 * (off % 8))))))
        ∧ ∀ v : BitVec 64, exec (.csrWrite path off n (some v)) s = .next (s.csrDirect (off - off % 8)
          (v.toNat % 2 ^ (8 * n) * 2 ^ (8 * (off % 8))) ((2 ^ (8 * n) - 1) * 2 ^ (8 * (off % 8)))).pump)
      ∧ (up = true → csrForm off n = true → reach = false →
        exec (.csrWrite path off n none) s = .next (s.emit .csrNotReady)
        ∧ ∀ v, exec (.csrWrite path off n (some v)) s = .next s))
    ∧ (s.pwr.hub = false → exec .convCntCtlClear s = .next s ∧ exec .spallCntCtlClear s = .next s ∧ exec .fnCntCtlClear s = .next s
      ∧ exec .slackClear s = .next s ∧ (∀ on, exec (.tickEv on) s = .next s) ∧ (∀ on, exec (.cmdEv on) s = .next s)
      ∧ (∀ on, exec (.fabEv on) s = .next s) ∧ ∀ on, exec (.errEv on) s = .next s)
    ∧ (s.pwr.hub = true → exec .convCntCtlClear s = .next s.clearConv ∧ exec .spallCntCtlClear s = .next s.clearSpall
      ∧ exec .fnCntCtlClear s = .next s.clearFn ∧ exec .slackClear s = .next s.clearSlack
      ∧ ∀ on, (∃ t, exec (.tickEv on) s = .next t ∧ t.cfg.traceCtl.getLsbD 0 = on ∧ t.mem = s.mem)
        ∧ (∃ t, exec (.cmdEv on) s = .next t ∧ t.cfg.traceCtl.getLsbD 1 = on ∧ t.mem = s.mem)
        ∧ (∃ t, exec (.fabEv on) s = .next t ∧ t.cfg.traceCtl.getLsbD 2 = on ∧ t.mem = s.mem)
        ∧ ∃ t, exec (.errEv on) s = .next t ∧ t.cfg.traceCtl.getLsbD 3 = on ∧ t.mem = s.mem)
    ∧ ∀ off, s.pwr.hub = true →
      let a := s.cfg.hostWin.toNat * gib + off
      (∀ n, off + n ≤ gib → s.mem.rangeOk a n = true → ∃ t e, exec (.bar4Access off (.read n)) s = .next t
        ∧ t.out = s.out ++ [.hostRead (s.mem.bytes a n) e] ∧ (e = true ↔ s.mem.markedIn a n ≠ []) ∧ t.mem.cells = s.mem.cells)
      ∧ (∀ b : List Byte, off + b.length ≤ gib → s.mem.rangeOk a b.length = true → Memory.wf s.mem = true →
        (∀ r ∈ s.openTargets, meets a b.length r.1 r.2 = false) →
        (∀ k ∈ s.coll.buckets, k.broken = true ∨ k.spoils true a b.length = false) → s.inUse a b.length = [] →
        ∃ t, exec (.bar4Access off (.write b)) s = .next t
          ∧ ∀ x, Cells.readByte t.mem.cells x = if a ≤ x ∧ x < a + b.length then b.getD (x - a) 0 else Cells.readByte s.mem.cells x)
      ∧ (∀ b : List Byte, off + b.length ≤ gib → s.mem.rangeOk a b.length = true → exec (.bar4Access off (.write b)) s =
        .next (({ s with mem := s.mem.writeBytes a b [] } : State).hostWrite a b.length))
      ∧ (∀ acc, ¬(off + barBytes acc ≤ gib ∧ s.mem.rangeOk a (barBytes acc) = true) →
        exec (.bar4Access off acc) s = .next (s.emit .unsupported))

/-! ### Fatal records -/

/-- A record of any class but fatal changes no run state. A fatal one, while the Pit can halt, is marked as halting it and schedules the
halt: of its own cause by notice, NOTICE ticks ahead, for STALL_LIMIT and COLL_STALL, and for the next boundary otherwise. -/
def Obligations.FatalRecordsHaltThePit : Prop :=
  ∀ (s : State) (code : Nat) (u : EUnit) (addr : Nat) (d : List Byte),
    let t := s.raise code u addr d
    (∃ e, t.errs.raised = s.errs.raised ++ [e] ∧ e.code = code ∧ e.cls = errClass code ∧ e.unit = u.code ∧ e.index = u.index
      ∧ e.halted = (errClass code == 3 && s.canHalt) ∧ e.detail = padTo 16 d)
    ∧ (errClass code ≠ 3 ∨ s.canHalt = false → t = { s with errs := t.errs })
    ∧ (errClass code = 3 → s.canHalt = true → s.tk.run = .running → t.tk.run = .halting)
    ∧ (errClass code = 3 → s.canHalt = true → code = 0x0402 ∨ code = 0x0405 →
      t.sched.halts = s.sched.halts ++ [⟨s.tk.tickCount.toNat + s.tk.notice.toNat, 3, false⟩])
    ∧ (errClass code = 3 → s.canHalt = true → code ≠ 0x0402 → code ≠ 0x0405 →
      t.sched.halts = s.sched.halts ++ [⟨s.tk.tickCount.toNat + 1, if code = 0x0408 then 6 else 5, false⟩])

/-! ### Reset -/

/-- The CSRs read their reset values, as the tables of the registers give them; nothing is listed in memory, and no command waits. (Log entry 1 names
the values the spec does not give; none of them is stated here.) -/
def Obligations.ResetHoldsTheSpecsValues : Prop :=
  (∀ off v : Nat, (off, v) ∈ ([(0x28, 0x2000000000000001), (0x30, 0x200000), (0x38, 0x2000000000000000), (0x40, 0x2000000000000000),
      (0x48, 0), (0x50, 0), (0x58, 0x20028028), (0x60, 0), (0x68, 0), (0x80, 0x20000000), (0x88, 0), (0x90, 0), (0x98, 0x20100100),
      (0xC0, 0x20000022), (0xC8, 0x20000022), (0xD0, 1), (0x100, 0x2000000000000020), (0x108, 0), (0x110, 0), (0x140, 0x20100000),
      (0x1C0, 0x2000000000000000), (0x200, 0), (0x208, 0x200000000000FF80), (0x210, 0x20006002), (0x4C0, 0), (0x4C8, 0x200000),
      (0x890, 0), (0xC00, 0x2000000000000000), (0xC08, 0), (0xC10, 0), (0xD00, 0)] : List (Nat × Nat)) → State.reset.csr64 off = v)
  ∧ (∀ i, i < 19 → State.reset.csr64 (0x800 + 8 * i) = 0)
  ∧ (∀ d, d < 8 → State.reset.csr64 (0x148 + 8 * d) = 2)
  ∧ (∀ p, p < 6 → State.reset.csr64 (0xA00 + 8 * p) = 0x2000000000000000)
  ∧ (∀ f, f < 96 → State.reset.csr64 (0x1000 + 8 * f) = 0x2000000000000000 ∧ State.reset.csr64 (0x1800 + 8 * f) = 0x2000000FFFFFF
    ∧ State.reset.csr64 (0x1C00 + 8 * f) = 0x2000002)
  ∧ (∀ q, q < 64 → State.reset.csr64 (0x4000 + 0x40 * q + 0x18) = 0x2000000000660000 + q * 2 ^ 24
    ∧ State.reset.csr64 (0x4000 + 0x40 * q) = 0 ∧ State.reset.csr64 (0x4000 + 0x40 * q + 0x20) = 0)
  ∧ State.reset.mem.cells = [] ∧ State.reset.pending = []
end

