-- ==== Sys2Proof/Laws/Memory.lean ====
section
/-! SUPPORT. Memory: the canonical form, what a lookup finds in it, and that every memory operation keeps it. -/

namespace Sys2Proof.Machine

/-! ### The canonical form -/

theorem swfFrom_iff {α : Type} [DecidableEq α] (d : α) (lo : Nat) (m : List (Nat × α)) :
    swfFrom d lo m = true ↔ (∀ p ∈ m, lo ≤ p.1 ∧ p.2 ≠ d) ∧ m.Pairwise (fun a b => a.1 < b.1) := by
  induction m generalizing lo with
  | nil => simp [swfFrom]
  | cons a r ih =>
    simp only [swfFrom, Bool.and_eq_true, decide_eq_true_eq, ih, List.mem_cons, forall_eq_or_imp, List.pairwise_cons]
    constructor
    · rintro ⟨⟨h1, h2⟩, h3, h4⟩
      exact ⟨⟨⟨h1, h2⟩, fun p hp => ⟨by have := (h3 p hp).1; omega, (h3 p hp).2⟩⟩, fun p hp => by have := (h3 p hp).1; omega, h4⟩
    · rintro ⟨⟨⟨h1, h2⟩, h3⟩, h4, h5⟩
      exact ⟨⟨h1, h2⟩, fun p hp => ⟨by have := h4 p hp; omega, (h3 p hp).2⟩, h5⟩

theorem swf_iff {α : Type} [DecidableEq α] (d : α) (m : List (Nat × α)) :
    swf d m = true ↔ (∀ p ∈ m, p.2 ≠ d) ∧ m.Pairwise (fun a b => a.1 < b.1) := by
  simp [swf, swfFrom_iff]

/-- A filter by key keeps the form. -/
theorem swf_filter {α : Type} [DecidableEq α] (d : α) (m : List (Nat × α)) (f : Nat × α → Bool) (h : swf d m = true) :
    swf d (m.filter f) = true := by
  rw [swf_iff] at *
  exact ⟨fun p hp => h.1 p (List.mem_filter.1 hp).1, h.2.filter f⟩

theorem sget_none {α : Type} (d : α) (m : List (Nat × α)) (k : Nat) (h : ∀ p ∈ m, p.1 ≠ k) : sget d m k = d := by
  induction m with
  | nil => rfl
  | cons a r ih =>
    have h1 : a.1 ≠ k := h a (by simp)
    simp only [sget, if_neg h1.symm]
    split
    · rfl
    · exact ih fun p hp => h p (by simp [hp])

theorem sget_some {α : Type} (d : α) (m : List (Nat × α)) (p : Nat × α) (hm : m.Pairwise (fun a b => a.1 < b.1)) (h : p ∈ m) :
    sget d m p.1 = p.2 := by
  induction m with
  | nil => simp at h
  | cons a r ih =>
    rw [List.pairwise_cons] at hm
    rcases List.mem_cons.1 h with rfl | h
    · simp [sget]
    · have := hm.1 p h
      simp only [sget, if_neg (show ¬p.1 = a.1 by omega), if_neg (show ¬p.1 < a.1 by omega)]
      exact ih hm.2 h

theorem sget_append {α : Type} (d : α) (m n : List (Nat × α)) (k : Nat) (h : (m ++ n).Pairwise (fun a b => a.1 < b.1)) :
    sget d (m ++ n) k = if m.any (fun p => p.1 == k) then sget d m k else sget d n k := by
  split
  · rename_i hk
    obtain ⟨p, hp, e⟩ := List.any_eq_true.1 hk
    have e : p.1 = k := by simpa using e
    subst e
    rw [sget_some d _ p h (by simp [hp]), sget_some d _ p (List.pairwise_append.1 h).1 hp]
  · rename_i hk
    have hm : ∀ p ∈ m, p.1 ≠ k := fun p hp e => hk (List.any_eq_true.2 ⟨p, hp, by simp [e]⟩)
    by_cases hn : ∃ p ∈ n, p.1 = k
    · obtain ⟨p, hp, rfl⟩ := hn
      rw [sget_some d _ p h (by simp [hp]), sget_some d _ p (List.pairwise_append.1 h).2.1 hp]
    · rw [sget_none d _ k fun p hp => ?_, sget_none d _ k fun p hp => ?_]
      · exact fun e => hn ⟨p, hp, e⟩
      · rcases List.mem_append.1 hp with hp | hp
        · exact hm p hp
        · exact fun e => hn ⟨p, hp, e⟩

/-! ### Writing bytes -/

theorem listed_mem (a : Nat) (b : List Byte) (p : Nat × Byte) (h : p ∈ listed a b) :
    a ≤ p.1 ∧ p.1 < a + b.length ∧ p.2 ≠ 0 ∧ b.getD (p.1 - a) 0 = p.2 := by
  induction b generalizing a with
  | nil => simp [listed] at h
  | cons x r ih =>
    simp only [listed] at h
    split at h
    · have := ih _ h
      refine ⟨by omega, by simp; omega, this.2.2.1, ?_⟩
      rw [show p.1 - a = (p.1 - (a + 1)) + 1 by omega]; simpa using this.2.2.2
    · rcases List.mem_cons.1 h with rfl | h
      · simp_all
      · have := ih _ h
        refine ⟨by omega, by simp; omega, this.2.2.1, ?_⟩
        rw [show p.1 - a = (p.1 - (a + 1)) + 1 by omega]; simpa using this.2.2.2

theorem listed_sorted (a : Nat) (b : List Byte) : (listed a b).Pairwise (fun x y => x.1 < y.1) := by
  induction b generalizing a with
  | nil => simp [listed]
  | cons x r ih =>
    simp only [listed]
    split
    · exact ih _
    · exact List.pairwise_cons.2 ⟨fun p hp => by have := (listed_mem _ _ _ hp).1; show a < p.1; omega, ih _⟩

theorem sget_listed (a : Nat) (b : List Byte) (x : Nat) :
    sget 0 (listed a b) x = if a ≤ x ∧ x < a + b.length then b.getD (x - a) 0 else 0 := by
  induction b generalizing a with
  | nil => simp [listed, sget]
  | cons y r ih =>
    have hlt : ∀ k, (if a + 1 ≤ x ∧ x < a + 1 + r.length then r.getD (x - (a + 1)) 0 else (0 : Byte)) = k →
        x ≠ a → (if a ≤ x ∧ x < a + (y :: r).length then (y :: r).getD (x - a) 0 else 0) = k := by
      rintro k rfl hx
      by_cases h : a + 1 ≤ x ∧ x < a + 1 + r.length
      · rw [if_pos h, if_pos (by simp; omega), show x - a = (x - (a + 1)) + 1 by omega]; simp
      · rw [if_neg h, if_neg (by simp; omega)]
    simp only [listed]
    split
    · rename_i hy
      by_cases hx : x = a
      · subst hx; rw [ih, if_neg (by omega)]; simp [hy]
      · rw [ih, hlt _ rfl hx]
    · simp only [sget]
      by_cases hx : x = a
      · subst hx; simp
      · rw [if_neg hx]
        split
        · rw [if_neg (by omega)]
        · rw [ih, hlt _ rfl hx]

theorem write_sorted (c : Cells) (a : Nat) (b : List Byte) (h : c.Pairwise (fun x y => x.1 < y.1)) :
    (Cells.write c a b).Pairwise (fun x y => x.1 < y.1) := by
  simp only [Cells.write, cellsBelow, cellsFrom, List.append_assoc]
  refine List.pairwise_append.2 ⟨h.filter _, List.pairwise_append.2 ⟨listed_sorted _ _, h.filter _, fun p hp q hq => ?_⟩, fun p hp q hq => ?_⟩
  · have h1 := (listed_mem _ _ _ hp).2.1
    have h2 := (List.mem_filter.1 hq).2
    simp at h2; omega
  · have h1 := (List.mem_filter.1 hp).2
    simp at h1
    rcases List.mem_append.1 hq with hq | hq
    · have := (listed_mem _ _ _ hq).1; omega
    · have h2 := (List.mem_filter.1 hq).2
      simp at h2; omega

/-- A write keeps the canonical form. -/
theorem Cells.write_wf (c : Cells) (a : Nat) (b : List Byte) (h : swf (0 : Byte) c = true) : swf (0 : Byte) (Cells.write c a b) = true := by
  rw [swf_iff] at *
  refine ⟨fun p hp => ?_, write_sorted c a b h.2⟩
  simp only [Cells.write, cellsBelow, cellsFrom, List.mem_append, List.mem_filter] at hp
  rcases hp with (hp | hp) | hp
  · exact h.1 p hp.1
  · exact (listed_mem _ _ _ hp).2.2.1
  · exact h.1 p hp.1

/-! ### Every memory operation keeps the form -/

theorem Cells.zero_wf (c : Cells) (a n : Nat) (h : swf (0 : Byte) c = true) : swf (0 : Byte) (Cells.zero c a n) = true := by
  rw [swf_iff] at *
  refine ⟨fun p hp => ?_, ?_⟩
  · simp only [Cells.zero, cellsBelow, cellsFrom, List.mem_append, List.mem_filter] at hp
    rcases hp with hp | hp <;> exact h.1 p hp.1
  · simp only [Cells.zero, cellsBelow, cellsFrom]
    refine List.pairwise_append.2 ⟨h.2.filter _, h.2.filter _, fun p hp q hq => ?_⟩
    have h1 := (List.mem_filter.1 hp).2
    have h2 := (List.mem_filter.1 hq).2
    simp at h1 h2; omega

theorem Cells.writeElem_wf (c : Cells) (w : BitWrite) (h : swf (0 : Byte) c = true) : swf (0 : Byte) (Cells.writeElem c w) = true := by
  unfold Cells.writeElem; simp only []; split <;> exact Cells.write_wf _ _ _ h

theorem Mem.write_wf (m : Mem) (ws : List BitWrite) (h : Memory.wf m = true) : Memory.wf (m.write ws) = true := by
  unfold Memory.wf Mem.write at *
  simp only []
  generalize m.cells = c at *
  induction ws generalizing c with
  | nil => exact h
  | cons w r ih => exact ih _ (Cells.writeElem_wf _ _ h)

theorem Mem.writeBytes_wf (m : Mem) (a : Nat) (b : List Byte) (marks : List Nat) (h : Memory.wf m = true) :
    Memory.wf (m.writeBytes a b marks) = true := Cells.write_wf _ _ _ h

theorem Mem.scrub_wf (m : Mem) (a n : Nat) (h : Memory.wf m = true) : Memory.wf (m.scrub a n) = true := Cells.zero_wf _ _ _ h

theorem Mem.lose_wf (m : Mem) : Memory.wf m.lose = true := rfl

theorem Mem.scrubStack_wf (m : Mem) (st : Nat) (h : Memory.wf m = true) : Memory.wf (m.scrubStack st) = true := swf_filter _ _ _ h

end Sys2Proof.Machine
end

