-- ==== Sys2Proof/Laws/State.lean ====
section
/-! SUPPORT. One lemma for each field that a plain update of the state leaves as it is, and for what it sets. -/

namespace Sys2Proof.Machine

/-! ### A Face, a queue pair, a port, an output -/

@[simp] theorem State.updFace_tk (s : State) (f : FaceId) (g : Face → Face) : (s.updFace f g).tk = s.tk := rfl
@[simp] theorem State.updFace_cfg (s : State) (f : FaceId) (g : Face → Face) : (s.updFace f g).cfg = s.cfg := rfl
@[simp] theorem State.updFace_sched (s : State) (f : FaceId) (g : Face → Face) : (s.updFace f g).sched = s.sched := rfl
@[simp] theorem State.updFace_pit (s : State) (f : FaceId) (g : Face → Face) : (s.updFace f g).pit = s.pit := rfl
@[simp] theorem State.updFace_twin (s : State) (f : FaceId) (g : Face → Face) : (s.updFace f g).twin = s.twin := rfl
@[simp] theorem State.updFace_mem (s : State) (f : FaceId) (g : Face → Face) : (s.updFace f g).mem = s.mem := rfl
@[simp] theorem State.updFace_strm (s : State) (f : FaceId) (g : Face → Face) : (s.updFace f g).strm = s.strm := rfl
@[simp] theorem State.updFace_coll (s : State) (f : FaceId) (g : Face → Face) : (s.updFace f g).coll = s.coll := rfl
@[simp] theorem State.updFace_fab (s : State) (f : FaceId) (g : Face → Face) : (s.updFace f g).fab = s.fab := rfl
@[simp] theorem State.updFace_host (s : State) (f : FaceId) (g : Face → Face) : (s.updFace f g).host = s.host := rfl
@[simp] theorem State.updFace_fw (s : State) (f : FaceId) (g : Face → Face) : (s.updFace f g).fw = s.fw := rfl
@[simp] theorem State.updFace_flash (s : State) (f : FaceId) (g : Face → Face) : (s.updFace f g).flash = s.flash := rfl
@[simp] theorem State.updFace_pwr (s : State) (f : FaceId) (g : Face → Face) : (s.updFace f g).pwr = s.pwr := rfl
@[simp] theorem State.updFace_errs (s : State) (f : FaceId) (g : Face → Face) : (s.updFace f g).errs = s.errs := rfl
@[simp] theorem State.updFace_cnt (s : State) (f : FaceId) (g : Face → Face) : (s.updFace f g).cnt = s.cnt := rfl
@[simp] theorem State.updFace_bists (s : State) (f : FaceId) (g : Face → Face) : (s.updFace f g).bists = s.bists := rfl
@[simp] theorem State.updFace_loads (s : State) (f : FaceId) (g : Face → Face) : (s.updFace f g).loads = s.loads := rfl
@[simp] theorem State.updFace_free (s : State) (f : FaceId) (g : Face → Face) : (s.updFace f g).free = s.free := rfl
@[simp] theorem State.updFace_out (s : State) (f : FaceId) (g : Face → Face) : (s.updFace f g).out = s.out := rfl
@[simp] theorem State.updFace_pending (s : State) (f : FaceId) (g : Face → Face) : (s.updFace f g).pending = s.pending := rfl

@[simp] theorem State.updFace_faces (s : State) (f : FaceId) (g : Face → Face) : (s.updFace f g).faces = lmod g s.faces f.val := rfl

@[simp] theorem State.updUnits_tk (s : State) (f : FaceId) (g : FaceUnits → FaceUnits) : (s.updUnits f g).tk = s.tk := rfl
@[simp] theorem State.updUnits_cfg (s : State) (f : FaceId) (g : FaceUnits → FaceUnits) : (s.updUnits f g).cfg = s.cfg := rfl
@[simp] theorem State.updUnits_sched (s : State) (f : FaceId) (g : FaceUnits → FaceUnits) : (s.updUnits f g).sched = s.sched := rfl
@[simp] theorem State.updUnits_pit (s : State) (f : FaceId) (g : FaceUnits → FaceUnits) : (s.updUnits f g).pit = s.pit := rfl
@[simp] theorem State.updUnits_twin (s : State) (f : FaceId) (g : FaceUnits → FaceUnits) : (s.updUnits f g).twin = s.twin := rfl
@[simp] theorem State.updUnits_mem (s : State) (f : FaceId) (g : FaceUnits → FaceUnits) : (s.updUnits f g).mem = s.mem := rfl
@[simp] theorem State.updUnits_strm (s : State) (f : FaceId) (g : FaceUnits → FaceUnits) : (s.updUnits f g).strm = s.strm := rfl
@[simp] theorem State.updUnits_coll (s : State) (f : FaceId) (g : FaceUnits → FaceUnits) : (s.updUnits f g).coll = s.coll := rfl
@[simp] theorem State.updUnits_fab (s : State) (f : FaceId) (g : FaceUnits → FaceUnits) : (s.updUnits f g).fab = s.fab := rfl
@[simp] theorem State.updUnits_host (s : State) (f : FaceId) (g : FaceUnits → FaceUnits) : (s.updUnits f g).host = s.host := rfl
@[simp] theorem State.updUnits_fw (s : State) (f : FaceId) (g : FaceUnits → FaceUnits) : (s.updUnits f g).fw = s.fw := rfl
@[simp] theorem State.updUnits_flash (s : State) (f : FaceId) (g : FaceUnits → FaceUnits) : (s.updUnits f g).flash = s.flash := rfl
@[simp] theorem State.updUnits_pwr (s : State) (f : FaceId) (g : FaceUnits → FaceUnits) : (s.updUnits f g).pwr = s.pwr := rfl
@[simp] theorem State.updUnits_errs (s : State) (f : FaceId) (g : FaceUnits → FaceUnits) : (s.updUnits f g).errs = s.errs := rfl
@[simp] theorem State.updUnits_cnt (s : State) (f : FaceId) (g : FaceUnits → FaceUnits) : (s.updUnits f g).cnt = s.cnt := rfl
@[simp] theorem State.updUnits_bists (s : State) (f : FaceId) (g : FaceUnits → FaceUnits) : (s.updUnits f g).bists = s.bists := rfl
@[simp] theorem State.updUnits_loads (s : State) (f : FaceId) (g : FaceUnits → FaceUnits) : (s.updUnits f g).loads = s.loads := rfl
@[simp] theorem State.updUnits_free (s : State) (f : FaceId) (g : FaceUnits → FaceUnits) : (s.updUnits f g).free = s.free := rfl
@[simp] theorem State.updUnits_out (s : State) (f : FaceId) (g : FaceUnits → FaceUnits) : (s.updUnits f g).out = s.out := rfl
@[simp] theorem State.updUnits_pending (s : State) (f : FaceId) (g : FaceUnits → FaceUnits) : (s.updUnits f g).pending = s.pending := rfl

@[simp] theorem State.count_tk (s : State) (f : FaceId) (t : Totals) : (s.count f t).tk = s.tk := rfl
@[simp] theorem State.count_cfg (s : State) (f : FaceId) (t : Totals) : (s.count f t).cfg = s.cfg := rfl
@[simp] theorem State.count_sched (s : State) (f : FaceId) (t : Totals) : (s.count f t).sched = s.sched := rfl
@[simp] theorem State.count_pit (s : State) (f : FaceId) (t : Totals) : (s.count f t).pit = s.pit := rfl
@[simp] theorem State.count_twin (s : State) (f : FaceId) (t : Totals) : (s.count f t).twin = s.twin := rfl
@[simp] theorem State.count_mem (s : State) (f : FaceId) (t : Totals) : (s.count f t).mem = s.mem := rfl
@[simp] theorem State.count_strm (s : State) (f : FaceId) (t : Totals) : (s.count f t).strm = s.strm := rfl
@[simp] theorem State.count_coll (s : State) (f : FaceId) (t : Totals) : (s.count f t).coll = s.coll := rfl
@[simp] theorem State.count_fab (s : State) (f : FaceId) (t : Totals) : (s.count f t).fab = s.fab := rfl
@[simp] theorem State.count_host (s : State) (f : FaceId) (t : Totals) : (s.count f t).host = s.host := rfl
@[simp] theorem State.count_fw (s : State) (f : FaceId) (t : Totals) : (s.count f t).fw = s.fw := rfl
@[simp] theorem State.count_flash (s : State) (f : FaceId) (t : Totals) : (s.count f t).flash = s.flash := rfl
@[simp] theorem State.count_pwr (s : State) (f : FaceId) (t : Totals) : (s.count f t).pwr = s.pwr := rfl
@[simp] theorem State.count_errs (s : State) (f : FaceId) (t : Totals) : (s.count f t).errs = s.errs := rfl
@[simp] theorem State.count_cnt (s : State) (f : FaceId) (t : Totals) : (s.count f t).cnt = s.cnt := rfl
@[simp] theorem State.count_bists (s : State) (f : FaceId) (t : Totals) : (s.count f t).bists = s.bists := rfl
@[simp] theorem State.count_loads (s : State) (f : FaceId) (t : Totals) : (s.count f t).loads = s.loads := rfl
@[simp] theorem State.count_free (s : State) (f : FaceId) (t : Totals) : (s.count f t).free = s.free := rfl
@[simp] theorem State.count_out (s : State) (f : FaceId) (t : Totals) : (s.count f t).out = s.out := rfl
@[simp] theorem State.count_pending (s : State) (f : FaceId) (t : Totals) : (s.count f t).pending = s.pending := rfl

@[simp] theorem State.emit_tk (s : State) (e : OutEvent) : (s.emit e).tk = s.tk := rfl
@[simp] theorem State.emit_cfg (s : State) (e : OutEvent) : (s.emit e).cfg = s.cfg := rfl
@[simp] theorem State.emit_sched (s : State) (e : OutEvent) : (s.emit e).sched = s.sched := rfl
@[simp] theorem State.emit_pit (s : State) (e : OutEvent) : (s.emit e).pit = s.pit := rfl
@[simp] theorem State.emit_twin (s : State) (e : OutEvent) : (s.emit e).twin = s.twin := rfl
@[simp] theorem State.emit_faces (s : State) (e : OutEvent) : (s.emit e).faces = s.faces := rfl
@[simp] theorem State.emit_mem (s : State) (e : OutEvent) : (s.emit e).mem = s.mem := rfl
@[simp] theorem State.emit_strm (s : State) (e : OutEvent) : (s.emit e).strm = s.strm := rfl
@[simp] theorem State.emit_coll (s : State) (e : OutEvent) : (s.emit e).coll = s.coll := rfl
@[simp] theorem State.emit_fab (s : State) (e : OutEvent) : (s.emit e).fab = s.fab := rfl
@[simp] theorem State.emit_host (s : State) (e : OutEvent) : (s.emit e).host = s.host := rfl
@[simp] theorem State.emit_fw (s : State) (e : OutEvent) : (s.emit e).fw = s.fw := rfl
@[simp] theorem State.emit_flash (s : State) (e : OutEvent) : (s.emit e).flash = s.flash := rfl
@[simp] theorem State.emit_pwr (s : State) (e : OutEvent) : (s.emit e).pwr = s.pwr := rfl
@[simp] theorem State.emit_errs (s : State) (e : OutEvent) : (s.emit e).errs = s.errs := rfl
@[simp] theorem State.emit_cnt (s : State) (e : OutEvent) : (s.emit e).cnt = s.cnt := rfl
@[simp] theorem State.emit_bists (s : State) (e : OutEvent) : (s.emit e).bists = s.bists := rfl
@[simp] theorem State.emit_loads (s : State) (e : OutEvent) : (s.emit e).loads = s.loads := rfl
@[simp] theorem State.emit_free (s : State) (e : OutEvent) : (s.emit e).free = s.free := rfl
@[simp] theorem State.emit_pending (s : State) (e : OutEvent) : (s.emit e).pending = s.pending := rfl

@[simp] theorem State.emit_out (s : State) (e : OutEvent) : (s.emit e).out = s.out ++ [e] := rfl

@[simp] theorem State.updQueue_tk (s : State) (q : QueueId) (g : Queue → Queue) : (s.updQueue q g).tk = s.tk := rfl
@[simp] theorem State.updQueue_cfg (s : State) (q : QueueId) (g : Queue → Queue) : (s.updQueue q g).cfg = s.cfg := rfl
@[simp] theorem State.updQueue_sched (s : State) (q : QueueId) (g : Queue → Queue) : (s.updQueue q g).sched = s.sched := rfl
@[simp] theorem State.updQueue_pit (s : State) (q : QueueId) (g : Queue → Queue) : (s.updQueue q g).pit = s.pit := rfl
@[simp] theorem State.updQueue_twin (s : State) (q : QueueId) (g : Queue → Queue) : (s.updQueue q g).twin = s.twin := rfl
@[simp] theorem State.updQueue_faces (s : State) (q : QueueId) (g : Queue → Queue) : (s.updQueue q g).faces = s.faces := rfl
@[simp] theorem State.updQueue_mem (s : State) (q : QueueId) (g : Queue → Queue) : (s.updQueue q g).mem = s.mem := rfl
@[simp] theorem State.updQueue_strm (s : State) (q : QueueId) (g : Queue → Queue) : (s.updQueue q g).strm = s.strm := rfl
@[simp] theorem State.updQueue_coll (s : State) (q : QueueId) (g : Queue → Queue) : (s.updQueue q g).coll = s.coll := rfl
@[simp] theorem State.updQueue_fab (s : State) (q : QueueId) (g : Queue → Queue) : (s.updQueue q g).fab = s.fab := rfl
@[simp] theorem State.updQueue_fw (s : State) (q : QueueId) (g : Queue → Queue) : (s.updQueue q g).fw = s.fw := rfl
@[simp] theorem State.updQueue_flash (s : State) (q : QueueId) (g : Queue → Queue) : (s.updQueue q g).flash = s.flash := rfl
@[simp] theorem State.updQueue_pwr (s : State) (q : QueueId) (g : Queue → Queue) : (s.updQueue q g).pwr = s.pwr := rfl
@[simp] theorem State.updQueue_errs (s : State) (q : QueueId) (g : Queue → Queue) : (s.updQueue q g).errs = s.errs := rfl
@[simp] theorem State.updQueue_cnt (s : State) (q : QueueId) (g : Queue → Queue) : (s.updQueue q g).cnt = s.cnt := rfl
@[simp] theorem State.updQueue_bists (s : State) (q : QueueId) (g : Queue → Queue) : (s.updQueue q g).bists = s.bists := rfl
@[simp] theorem State.updQueue_loads (s : State) (q : QueueId) (g : Queue → Queue) : (s.updQueue q g).loads = s.loads := rfl
@[simp] theorem State.updQueue_free (s : State) (q : QueueId) (g : Queue → Queue) : (s.updQueue q g).free = s.free := rfl
@[simp] theorem State.updQueue_out (s : State) (q : QueueId) (g : Queue → Queue) : (s.updQueue q g).out = s.out := rfl
@[simp] theorem State.updQueue_pending (s : State) (q : QueueId) (g : Queue → Queue) : (s.updQueue q g).pending = s.pending := rfl

@[simp] theorem State.updQueue_queues (s : State) (q : QueueId) (g : Queue → Queue) :
    (s.updQueue q g).host.queues = lmod g s.host.queues q.val := rfl

@[simp] theorem State.updQueue_hostMem (s : State) (q : QueueId) (g : Queue → Queue) : (s.updQueue q g).host.hostMem = s.host.hostMem := rfl

@[simp] theorem State.updPort_tk (s : State) (p : PortId) (g : Port → Port) : (s.updPort p g).tk = s.tk := rfl
@[simp] theorem State.updPort_cfg (s : State) (p : PortId) (g : Port → Port) : (s.updPort p g).cfg = s.cfg := rfl
@[simp] theorem State.updPort_sched (s : State) (p : PortId) (g : Port → Port) : (s.updPort p g).sched = s.sched := rfl
@[simp] theorem State.updPort_pit (s : State) (p : PortId) (g : Port → Port) : (s.updPort p g).pit = s.pit := rfl
@[simp] theorem State.updPort_twin (s : State) (p : PortId) (g : Port → Port) : (s.updPort p g).twin = s.twin := rfl
@[simp] theorem State.updPort_faces (s : State) (p : PortId) (g : Port → Port) : (s.updPort p g).faces = s.faces := rfl
@[simp] theorem State.updPort_mem (s : State) (p : PortId) (g : Port → Port) : (s.updPort p g).mem = s.mem := rfl
@[simp] theorem State.updPort_strm (s : State) (p : PortId) (g : Port → Port) : (s.updPort p g).strm = s.strm := rfl
@[simp] theorem State.updPort_coll (s : State) (p : PortId) (g : Port → Port) : (s.updPort p g).coll = s.coll := rfl
@[simp] theorem State.updPort_host (s : State) (p : PortId) (g : Port → Port) : (s.updPort p g).host = s.host := rfl
@[simp] theorem State.updPort_fw (s : State) (p : PortId) (g : Port → Port) : (s.updPort p g).fw = s.fw := rfl
@[simp] theorem State.updPort_flash (s : State) (p : PortId) (g : Port → Port) : (s.updPort p g).flash = s.flash := rfl
@[simp] theorem State.updPort_pwr (s : State) (p : PortId) (g : Port → Port) : (s.updPort p g).pwr = s.pwr := rfl
@[simp] theorem State.updPort_errs (s : State) (p : PortId) (g : Port → Port) : (s.updPort p g).errs = s.errs := rfl
@[simp] theorem State.updPort_cnt (s : State) (p : PortId) (g : Port → Port) : (s.updPort p g).cnt = s.cnt := rfl
@[simp] theorem State.updPort_bists (s : State) (p : PortId) (g : Port → Port) : (s.updPort p g).bists = s.bists := rfl
@[simp] theorem State.updPort_loads (s : State) (p : PortId) (g : Port → Port) : (s.updPort p g).loads = s.loads := rfl
@[simp] theorem State.updPort_free (s : State) (p : PortId) (g : Port → Port) : (s.updPort p g).free = s.free := rfl
@[simp] theorem State.updPort_out (s : State) (p : PortId) (g : Port → Port) : (s.updPort p g).out = s.out := rfl
@[simp] theorem State.updPort_pending (s : State) (p : PortId) (g : Port → Port) : (s.updPort p g).pending = s.pending := rfl

@[simp] theorem State.updPort_ports (s : State) (p : PortId) (g : Port → Port) :
    (s.updPort p g).fab.ports = lmod g s.fab.ports p.val := rfl

/-! ### A packet handed to the fabric -/

@[simp] theorem State.post_tk (s : State) (k : Packet) : (s.post k).tk = s.tk := rfl
@[simp] theorem State.post_cfg (s : State) (k : Packet) : (s.post k).cfg = s.cfg := rfl
@[simp] theorem State.post_sched (s : State) (k : Packet) : (s.post k).sched = s.sched := rfl
@[simp] theorem State.post_pit (s : State) (k : Packet) : (s.post k).pit = s.pit := rfl
@[simp] theorem State.post_twin (s : State) (k : Packet) : (s.post k).twin = s.twin := rfl
@[simp] theorem State.post_faces (s : State) (k : Packet) : (s.post k).faces = s.faces := rfl
@[simp] theorem State.post_mem (s : State) (k : Packet) : (s.post k).mem = s.mem := rfl
@[simp] theorem State.post_strm (s : State) (k : Packet) : (s.post k).strm = s.strm := rfl
@[simp] theorem State.post_coll (s : State) (k : Packet) : (s.post k).coll = s.coll := rfl
@[simp] theorem State.post_host (s : State) (k : Packet) : (s.post k).host = s.host := rfl
@[simp] theorem State.post_fw (s : State) (k : Packet) : (s.post k).fw = s.fw := rfl
@[simp] theorem State.post_flash (s : State) (k : Packet) : (s.post k).flash = s.flash := rfl
@[simp] theorem State.post_pwr (s : State) (k : Packet) : (s.post k).pwr = s.pwr := rfl
@[simp] theorem State.post_errs (s : State) (k : Packet) : (s.post k).errs = s.errs := rfl
@[simp] theorem State.post_cnt (s : State) (k : Packet) : (s.post k).cnt = s.cnt := rfl
@[simp] theorem State.post_bists (s : State) (k : Packet) : (s.post k).bists = s.bists := rfl
@[simp] theorem State.post_loads (s : State) (k : Packet) : (s.post k).loads = s.loads := rfl
@[simp] theorem State.post_free (s : State) (k : Packet) : (s.post k).free = s.free := rfl
@[simp] theorem State.post_out (s : State) (k : Packet) : (s.post k).out = s.out := rfl
@[simp] theorem State.post_pending (s : State) (k : Packet) : (s.post k).pending = s.pending := rfl
@[simp] theorem State.post_ports (s : State) (k : Packet) : (s.post k).fab.ports = s.fab.ports := rfl
@[simp] theorem State.post_own (s : State) (k : Packet) : (s.post k).fab.own = s.fab.own ++ [k] := rfl

/-! ### What an index update reads -/

@[simp] theorem lmod_length {α : Type} (g : α → α) (l : List α) (i : Nat) : (lmod g l i).length = l.length := by
  induction l generalizing i with
  | nil => rfl
  | cons a r ih => cases i with
    | zero => rfl
    | succ i => simp [lmod, ih]

theorem lmod_getD {α : Type} (g : α → α) (d : α) (l : List α) (i j : Nat) :
    (lmod g l i).getD j d = if i = j ∧ j < l.length then g (l.getD j d) else l.getD j d := by
  induction l generalizing i j with
  | nil => simp [lmod]
  | cons a r ih =>
    cases i with
    | zero => cases j <;> simp [lmod]
    | succ i => cases j with
      | zero => simp [lmod]
      | succ j => simp only [lmod, List.getD_cons_succ, ih, List.length_cons, Nat.add_lt_add_iff_right, Nat.add_right_cancel_iff]

@[simp] theorem State.updFace_face_ne (s : State) (f g : FaceId) (u : Face → Face) (h : f ≠ g) : (s.updFace f u).face g = s.face g := by
  have : f.val ≠ g.val := fun e => h (Fin.ext e)
  simp only [State.face, State.updFace_faces, lmod_getD, this, false_and, if_false]

theorem State.updFace_face (s : State) (f : FaceId) (u : Face → Face) (h : f.val < s.faces.length) :
    (s.updFace f u).face f = u (s.face f) := by
  simp only [State.face, State.updFace_faces, lmod_getD, h, and_self, if_true]

@[simp] theorem State.updPort_port_ne (s : State) (p q : PortId) (u : Port → Port) (h : p ≠ q) : (s.updPort p u).port q = s.port q := by
  have : p.val ≠ q.val := fun e => h (Fin.ext e)
  simp only [State.port, State.updPort_ports, lmod_getD, this, false_and, if_false]

theorem State.updPort_port (s : State) (p : PortId) (u : Port → Port) (h : p.val < s.fab.ports.length) :
    (s.updPort p u).port p = u (s.port p) := by
  simp only [State.port, State.updPort_ports, lmod_getD, h, and_self, if_true]

theorem State.updQueue_queue (s : State) (q : QueueId) (u : Queue → Queue) (h : q.val < s.host.queues.length) :
    (s.updQueue q u).queue q = u (s.queue q) := by
  simp only [State.queue, State.updQueue_queues, lmod_getD, h, and_self, if_true]

end Sys2Proof.Machine
end

