-- ==== Sys2Proof/Laws/Ops.lean ====
section
/-! SUPPORT. What each shared operation of the module leaves as it is, and what it does. -/

namespace Sys2Proof.Machine

set_option linter.unusedSimpArgs false
set_option linter.unusedVariables false

/-! ### Trace (R332) -/

@[simp] theorem State.trace_tk (s : State) (e c : Nat) (d : List Nat) : (s.trace e c d).tk = s.tk := by
  unfold State.trace; split <;> rfl
@[simp] theorem State.trace_sched (s : State) (e c : Nat) (d : List Nat) : (s.trace e c d).sched = s.sched := by
  unfold State.trace; split <;> rfl
@[simp] theorem State.trace_pit (s : State) (e c : Nat) (d : List Nat) : (s.trace e c d).pit = s.pit := by
  unfold State.trace; split <;> rfl
@[simp] theorem State.trace_twin (s : State) (e c : Nat) (d : List Nat) : (s.trace e c d).twin = s.twin := by
  unfold State.trace; split <;> rfl
@[simp] theorem State.trace_faces (s : State) (e c : Nat) (d : List Nat) : (s.trace e c d).faces = s.faces := by
  unfold State.trace; split <;> rfl
@[simp] theorem State.trace_strm (s : State) (e c : Nat) (d : List Nat) : (s.trace e c d).strm = s.strm := by
  unfold State.trace; split <;> rfl
@[simp] theorem State.trace_coll (s : State) (e c : Nat) (d : List Nat) : (s.trace e c d).coll = s.coll := by
  unfold State.trace; split <;> rfl
@[simp] theorem State.trace_fab (s : State) (e c : Nat) (d : List Nat) : (s.trace e c d).fab = s.fab := by
  unfold State.trace; split <;> rfl
@[simp] theorem State.trace_host (s : State) (e c : Nat) (d : List Nat) : (s.trace e c d).host = s.host := by
  unfold State.trace; split <;> rfl
@[simp] theorem State.trace_fw (s : State) (e c : Nat) (d : List Nat) : (s.trace e c d).fw = s.fw := by
  unfold State.trace; split <;> rfl
@[simp] theorem State.trace_flash (s : State) (e c : Nat) (d : List Nat) : (s.trace e c d).flash = s.flash := by
  unfold State.trace; split <;> rfl
@[simp] theorem State.trace_pwr (s : State) (e c : Nat) (d : List Nat) : (s.trace e c d).pwr = s.pwr := by
  unfold State.trace; split <;> rfl
@[simp] theorem State.trace_errs (s : State) (e c : Nat) (d : List Nat) : (s.trace e c d).errs = s.errs := by
  unfold State.trace; split <;> rfl
@[simp] theorem State.trace_cnt (s : State) (e c : Nat) (d : List Nat) : (s.trace e c d).cnt = s.cnt := by
  unfold State.trace; split <;> rfl
@[simp] theorem State.trace_bists (s : State) (e c : Nat) (d : List Nat) : (s.trace e c d).bists = s.bists := by
  unfold State.trace; split <;> rfl
@[simp] theorem State.trace_loads (s : State) (e c : Nat) (d : List Nat) : (s.trace e c d).loads = s.loads := by
  unfold State.trace; split <;> rfl
@[simp] theorem State.trace_free (s : State) (e c : Nat) (d : List Nat) : (s.trace e c d).free = s.free := by
  unfold State.trace; split <;> rfl
@[simp] theorem State.trace_out (s : State) (e c : Nat) (d : List Nat) : (s.trace e c d).out = s.out := by
  unfold State.trace; split <;> rfl
@[simp] theorem State.trace_pending (s : State) (e c : Nat) (d : List Nat) : (s.trace e c d).pending = s.pending := by
  unfold State.trace; split <;> rfl

/-! ### Halts (R220) -/

@[simp] theorem State.schedHalt_cfg (s : State) (t : Nat) (c : BitVec 4) (r : Bool) : (s.schedHalt t c r).cfg = s.cfg := by
  unfold State.schedHalt; split <;> rfl
@[simp] theorem State.schedHalt_pit (s : State) (t : Nat) (c : BitVec 4) (r : Bool) : (s.schedHalt t c r).pit = s.pit := by
  unfold State.schedHalt; split <;> rfl
@[simp] theorem State.schedHalt_twin (s : State) (t : Nat) (c : BitVec 4) (r : Bool) : (s.schedHalt t c r).twin = s.twin := by
  unfold State.schedHalt; split <;> rfl
@[simp] theorem State.schedHalt_faces (s : State) (t : Nat) (c : BitVec 4) (r : Bool) : (s.schedHalt t c r).faces = s.faces := by
  unfold State.schedHalt; split <;> rfl
@[simp] theorem State.schedHalt_mem (s : State) (t : Nat) (c : BitVec 4) (r : Bool) : (s.schedHalt t c r).mem = s.mem := by
  unfold State.schedHalt; split <;> rfl
@[simp] theorem State.schedHalt_strm (s : State) (t : Nat) (c : BitVec 4) (r : Bool) : (s.schedHalt t c r).strm = s.strm := by
  unfold State.schedHalt; split <;> rfl
@[simp] theorem State.schedHalt_coll (s : State) (t : Nat) (c : BitVec 4) (r : Bool) : (s.schedHalt t c r).coll = s.coll := by
  unfold State.schedHalt; split <;> rfl
@[simp] theorem State.schedHalt_fab (s : State) (t : Nat) (c : BitVec 4) (r : Bool) : (s.schedHalt t c r).fab = s.fab := by
  unfold State.schedHalt; split <;> rfl
@[simp] theorem State.schedHalt_host (s : State) (t : Nat) (c : BitVec 4) (r : Bool) : (s.schedHalt t c r).host = s.host := by
  unfold State.schedHalt; split <;> rfl
@[simp] theorem State.schedHalt_fw (s : State) (t : Nat) (c : BitVec 4) (r : Bool) : (s.schedHalt t c r).fw = s.fw := by
  unfold State.schedHalt; split <;> rfl
@[simp] theorem State.schedHalt_flash (s : State) (t : Nat) (c : BitVec 4) (r : Bool) : (s.schedHalt t c r).flash = s.flash := by
  unfold State.schedHalt; split <;> rfl
@[simp] theorem State.schedHalt_pwr (s : State) (t : Nat) (c : BitVec 4) (r : Bool) : (s.schedHalt t c r).pwr = s.pwr := by
  unfold State.schedHalt; split <;> rfl
@[simp] theorem State.schedHalt_errs (s : State) (t : Nat) (c : BitVec 4) (r : Bool) : (s.schedHalt t c r).errs = s.errs := by
  unfold State.schedHalt; split <;> rfl
@[simp] theorem State.schedHalt_cnt (s : State) (t : Nat) (c : BitVec 4) (r : Bool) : (s.schedHalt t c r).cnt = s.cnt := by
  unfold State.schedHalt; split <;> rfl
@[simp] theorem State.schedHalt_bists (s : State) (t : Nat) (c : BitVec 4) (r : Bool) : (s.schedHalt t c r).bists = s.bists := by
  unfold State.schedHalt; split <;> rfl
@[simp] theorem State.schedHalt_loads (s : State) (t : Nat) (c : BitVec 4) (r : Bool) : (s.schedHalt t c r).loads = s.loads := by
  unfold State.schedHalt; split <;> rfl
@[simp] theorem State.schedHalt_free (s : State) (t : Nat) (c : BitVec 4) (r : Bool) : (s.schedHalt t c r).free = s.free := by
  unfold State.schedHalt; split <;> rfl
@[simp] theorem State.schedHalt_out (s : State) (t : Nat) (c : BitVec 4) (r : Bool) : (s.schedHalt t c r).out = s.out := by
  unfold State.schedHalt; split <;> rfl
@[simp] theorem State.schedHalt_pending (s : State) (t : Nat) (c : BitVec 4) (r : Bool) : (s.schedHalt t c r).pending = s.pending := by
  unfold State.schedHalt; split <;> rfl

@[simp] theorem State.localHalt_cfg (s : State) (c : BitVec 4) : (s.localHalt c).cfg = s.cfg := by
  simp [State.localHalt]
@[simp] theorem State.localHalt_pit (s : State) (c : BitVec 4) : (s.localHalt c).pit = s.pit := by
  simp [State.localHalt]
@[simp] theorem State.localHalt_twin (s : State) (c : BitVec 4) : (s.localHalt c).twin = s.twin := by
  simp [State.localHalt]
@[simp] theorem State.localHalt_faces (s : State) (c : BitVec 4) : (s.localHalt c).faces = s.faces := by
  simp [State.localHalt]
@[simp] theorem State.localHalt_mem (s : State) (c : BitVec 4) : (s.localHalt c).mem = s.mem := by
  simp [State.localHalt]
@[simp] theorem State.localHalt_strm (s : State) (c : BitVec 4) : (s.localHalt c).strm = s.strm := by
  simp [State.localHalt]
@[simp] theorem State.localHalt_coll (s : State) (c : BitVec 4) : (s.localHalt c).coll = s.coll := by
  simp [State.localHalt]
@[simp] theorem State.localHalt_fab (s : State) (c : BitVec 4) : (s.localHalt c).fab = s.fab := by
  simp [State.localHalt]
@[simp] theorem State.localHalt_host (s : State) (c : BitVec 4) : (s.localHalt c).host = s.host := by
  simp [State.localHalt]
@[simp] theorem State.localHalt_fw (s : State) (c : BitVec 4) : (s.localHalt c).fw = s.fw := by
  simp [State.localHalt]
@[simp] theorem State.localHalt_flash (s : State) (c : BitVec 4) : (s.localHalt c).flash = s.flash := by
  simp [State.localHalt]
@[simp] theorem State.localHalt_pwr (s : State) (c : BitVec 4) : (s.localHalt c).pwr = s.pwr := by
  simp [State.localHalt]
@[simp] theorem State.localHalt_errs (s : State) (c : BitVec 4) : (s.localHalt c).errs = s.errs := by
  simp [State.localHalt]
@[simp] theorem State.localHalt_cnt (s : State) (c : BitVec 4) : (s.localHalt c).cnt = s.cnt := by
  simp [State.localHalt]
@[simp] theorem State.localHalt_bists (s : State) (c : BitVec 4) : (s.localHalt c).bists = s.bists := by
  simp [State.localHalt]
@[simp] theorem State.localHalt_loads (s : State) (c : BitVec 4) : (s.localHalt c).loads = s.loads := by
  simp [State.localHalt]
@[simp] theorem State.localHalt_free (s : State) (c : BitVec 4) : (s.localHalt c).free = s.free := by
  simp [State.localHalt]
@[simp] theorem State.localHalt_out (s : State) (c : BitVec 4) : (s.localHalt c).out = s.out := by
  simp [State.localHalt]
@[simp] theorem State.localHalt_pending (s : State) (c : BitVec 4) : (s.localHalt c).pending = s.pending := by
  simp [State.localHalt]

@[simp] theorem State.toPit_tk (s : State) (b : Byte) (l : Option Load) : (s.toPit b l).tk = s.tk := by
  unfold State.toPit; split <;> rfl
@[simp] theorem State.toPit_cfg (s : State) (b : Byte) (l : Option Load) : (s.toPit b l).cfg = s.cfg := by
  unfold State.toPit; split <;> rfl
@[simp] theorem State.toPit_sched (s : State) (b : Byte) (l : Option Load) : (s.toPit b l).sched = s.sched := by
  unfold State.toPit; split <;> rfl
@[simp] theorem State.toPit_pit (s : State) (b : Byte) (l : Option Load) : (s.toPit b l).pit = s.pit := by
  unfold State.toPit; split <;> rfl
@[simp] theorem State.toPit_twin (s : State) (b : Byte) (l : Option Load) : (s.toPit b l).twin = s.twin := by
  unfold State.toPit; split <;> rfl
@[simp] theorem State.toPit_faces (s : State) (b : Byte) (l : Option Load) : (s.toPit b l).faces = s.faces := by
  unfold State.toPit; split <;> rfl
@[simp] theorem State.toPit_mem (s : State) (b : Byte) (l : Option Load) : (s.toPit b l).mem = s.mem := by
  unfold State.toPit; split <;> rfl
@[simp] theorem State.toPit_strm (s : State) (b : Byte) (l : Option Load) : (s.toPit b l).strm = s.strm := by
  unfold State.toPit; split <;> rfl
@[simp] theorem State.toPit_coll (s : State) (b : Byte) (l : Option Load) : (s.toPit b l).coll = s.coll := by
  unfold State.toPit; split <;> rfl
@[simp] theorem State.toPit_host (s : State) (b : Byte) (l : Option Load) : (s.toPit b l).host = s.host := by
  unfold State.toPit; split <;> rfl
@[simp] theorem State.toPit_fw (s : State) (b : Byte) (l : Option Load) : (s.toPit b l).fw = s.fw := by
  unfold State.toPit; split <;> rfl
@[simp] theorem State.toPit_flash (s : State) (b : Byte) (l : Option Load) : (s.toPit b l).flash = s.flash := by
  unfold State.toPit; split <;> rfl
@[simp] theorem State.toPit_pwr (s : State) (b : Byte) (l : Option Load) : (s.toPit b l).pwr = s.pwr := by
  unfold State.toPit; split <;> rfl
@[simp] theorem State.toPit_errs (s : State) (b : Byte) (l : Option Load) : (s.toPit b l).errs = s.errs := by
  unfold State.toPit; split <;> rfl
@[simp] theorem State.toPit_cnt (s : State) (b : Byte) (l : Option Load) : (s.toPit b l).cnt = s.cnt := by
  unfold State.toPit; split <;> rfl
@[simp] theorem State.toPit_bists (s : State) (b : Byte) (l : Option Load) : (s.toPit b l).bists = s.bists := by
  unfold State.toPit; split <;> rfl
@[simp] theorem State.toPit_loads (s : State) (b : Byte) (l : Option Load) : (s.toPit b l).loads = s.loads := by
  unfold State.toPit; split <;> rfl
@[simp] theorem State.toPit_free (s : State) (b : Byte) (l : Option Load) : (s.toPit b l).free = s.free := by
  unfold State.toPit; split <;> rfl
@[simp] theorem State.toPit_out (s : State) (b : Byte) (l : Option Load) : (s.toPit b l).out = s.out := by
  unfold State.toPit; split <;> rfl
@[simp] theorem State.toPit_pending (s : State) (b : Byte) (l : Option Load) : (s.toPit b l).pending = s.pending := by
  unfold State.toPit; split <;> rfl
@[simp] theorem State.toPit_ports (s : State) (b : Byte) (l : Option Load) : (s.toPit b l).fab.ports = s.fab.ports := by
  unfold State.toPit; split <;> rfl

@[simp] theorem State.toTwin_tk (s : State) (b : Byte) (l : Load) : (s.toTwin b l).tk = s.tk := by
  unfold State.toTwin; split <;> rfl
@[simp] theorem State.toTwin_cfg (s : State) (b : Byte) (l : Load) : (s.toTwin b l).cfg = s.cfg := by
  unfold State.toTwin; split <;> rfl
@[simp] theorem State.toTwin_sched (s : State) (b : Byte) (l : Load) : (s.toTwin b l).sched = s.sched := by
  unfold State.toTwin; split <;> rfl
@[simp] theorem State.toTwin_pit (s : State) (b : Byte) (l : Load) : (s.toTwin b l).pit = s.pit := by
  unfold State.toTwin; split <;> rfl
@[simp] theorem State.toTwin_twin (s : State) (b : Byte) (l : Load) : (s.toTwin b l).twin = s.twin := by
  unfold State.toTwin; split <;> rfl
@[simp] theorem State.toTwin_faces (s : State) (b : Byte) (l : Load) : (s.toTwin b l).faces = s.faces := by
  unfold State.toTwin; split <;> rfl
@[simp] theorem State.toTwin_mem (s : State) (b : Byte) (l : Load) : (s.toTwin b l).mem = s.mem := by
  unfold State.toTwin; split <;> rfl
@[simp] theorem State.toTwin_strm (s : State) (b : Byte) (l : Load) : (s.toTwin b l).strm = s.strm := by
  unfold State.toTwin; split <;> rfl
@[simp] theorem State.toTwin_coll (s : State) (b : Byte) (l : Load) : (s.toTwin b l).coll = s.coll := by
  unfold State.toTwin; split <;> rfl
@[simp] theorem State.toTwin_host (s : State) (b : Byte) (l : Load) : (s.toTwin b l).host = s.host := by
  unfold State.toTwin; split <;> rfl
@[simp] theorem State.toTwin_fw (s : State) (b : Byte) (l : Load) : (s.toTwin b l).fw = s.fw := by
  unfold State.toTwin; split <;> rfl
@[simp] theorem State.toTwin_flash (s : State) (b : Byte) (l : Load) : (s.toTwin b l).flash = s.flash := by
  unfold State.toTwin; split <;> rfl
@[simp] theorem State.toTwin_pwr (s : State) (b : Byte) (l : Load) : (s.toTwin b l).pwr = s.pwr := by
  unfold State.toTwin; split <;> rfl
@[simp] theorem State.toTwin_errs (s : State) (b : Byte) (l : Load) : (s.toTwin b l).errs = s.errs := by
  unfold State.toTwin; split <;> rfl
@[simp] theorem State.toTwin_cnt (s : State) (b : Byte) (l : Load) : (s.toTwin b l).cnt = s.cnt := by
  unfold State.toTwin; split <;> rfl
@[simp] theorem State.toTwin_bists (s : State) (b : Byte) (l : Load) : (s.toTwin b l).bists = s.bists := by
  unfold State.toTwin; split <;> rfl
@[simp] theorem State.toTwin_loads (s : State) (b : Byte) (l : Load) : (s.toTwin b l).loads = s.loads := by
  unfold State.toTwin; split <;> rfl
@[simp] theorem State.toTwin_free (s : State) (b : Byte) (l : Load) : (s.toTwin b l).free = s.free := by
  unfold State.toTwin; split <;> rfl
@[simp] theorem State.toTwin_out (s : State) (b : Byte) (l : Load) : (s.toTwin b l).out = s.out := by
  unfold State.toTwin; split <;> rfl
@[simp] theorem State.toTwin_pending (s : State) (b : Byte) (l : Load) : (s.toTwin b l).pending = s.pending := by
  unfold State.toTwin; split <;> rfl
@[simp] theorem State.toTwin_ports (s : State) (b : Byte) (l : Load) : (s.toTwin b l).fab.ports = s.fab.ports := by
  unfold State.toTwin; split <;> rfl

@[simp] theorem State.sendHaltNotice_tk (s : State) (n : HaltNotice) : (s.sendHaltNotice n).tk = s.tk := by
  simp [State.sendHaltNotice]
@[simp] theorem State.sendHaltNotice_cfg (s : State) (n : HaltNotice) : (s.sendHaltNotice n).cfg = s.cfg := by
  simp [State.sendHaltNotice]
@[simp] theorem State.sendHaltNotice_sched (s : State) (n : HaltNotice) : (s.sendHaltNotice n).sched = s.sched := by
  simp [State.sendHaltNotice]
@[simp] theorem State.sendHaltNotice_pit (s : State) (n : HaltNotice) : (s.sendHaltNotice n).pit = s.pit := by
  simp [State.sendHaltNotice]
@[simp] theorem State.sendHaltNotice_twin (s : State) (n : HaltNotice) : (s.sendHaltNotice n).twin = s.twin := by
  simp [State.sendHaltNotice]
@[simp] theorem State.sendHaltNotice_faces (s : State) (n : HaltNotice) : (s.sendHaltNotice n).faces = s.faces := by
  simp [State.sendHaltNotice]
@[simp] theorem State.sendHaltNotice_mem (s : State) (n : HaltNotice) : (s.sendHaltNotice n).mem = s.mem := by
  simp [State.sendHaltNotice]
@[simp] theorem State.sendHaltNotice_strm (s : State) (n : HaltNotice) : (s.sendHaltNotice n).strm = s.strm := by
  simp [State.sendHaltNotice]
@[simp] theorem State.sendHaltNotice_coll (s : State) (n : HaltNotice) : (s.sendHaltNotice n).coll = s.coll := by
  simp [State.sendHaltNotice]
@[simp] theorem State.sendHaltNotice_host (s : State) (n : HaltNotice) : (s.sendHaltNotice n).host = s.host := by
  simp [State.sendHaltNotice]
@[simp] theorem State.sendHaltNotice_fw (s : State) (n : HaltNotice) : (s.sendHaltNotice n).fw = s.fw := by
  simp [State.sendHaltNotice]
@[simp] theorem State.sendHaltNotice_flash (s : State) (n : HaltNotice) : (s.sendHaltNotice n).flash = s.flash := by
  simp [State.sendHaltNotice]
@[simp] theorem State.sendHaltNotice_pwr (s : State) (n : HaltNotice) : (s.sendHaltNotice n).pwr = s.pwr := by
  simp [State.sendHaltNotice]
@[simp] theorem State.sendHaltNotice_errs (s : State) (n : HaltNotice) : (s.sendHaltNotice n).errs = s.errs := by
  simp [State.sendHaltNotice]
@[simp] theorem State.sendHaltNotice_cnt (s : State) (n : HaltNotice) : (s.sendHaltNotice n).cnt = s.cnt := by
  simp [State.sendHaltNotice]
@[simp] theorem State.sendHaltNotice_bists (s : State) (n : HaltNotice) : (s.sendHaltNotice n).bists = s.bists := by
  simp [State.sendHaltNotice]
@[simp] theorem State.sendHaltNotice_loads (s : State) (n : HaltNotice) : (s.sendHaltNotice n).loads = s.loads := by
  simp [State.sendHaltNotice]
@[simp] theorem State.sendHaltNotice_free (s : State) (n : HaltNotice) : (s.sendHaltNotice n).free = s.free := by
  simp [State.sendHaltNotice]
@[simp] theorem State.sendHaltNotice_out (s : State) (n : HaltNotice) : (s.sendHaltNotice n).out = s.out := by
  simp [State.sendHaltNotice]
@[simp] theorem State.sendHaltNotice_pending (s : State) (n : HaltNotice) : (s.sendHaltNotice n).pending = s.pending := by
  simp [State.sendHaltNotice]
@[simp] theorem State.sendHaltNotice_ports (s : State) (n : HaltNotice) : (s.sendHaltNotice n).fab.ports = s.fab.ports := by
  simp [State.sendHaltNotice]

@[simp] theorem State.noticeHalt_cfg (s : State) (c : BitVec 4) (r : Bool) : (s.noticeHalt c r).cfg = s.cfg := by
  unfold State.noticeHalt; split <;> simp
@[simp] theorem State.noticeHalt_pit (s : State) (c : BitVec 4) (r : Bool) : (s.noticeHalt c r).pit = s.pit := by
  unfold State.noticeHalt; split <;> simp
@[simp] theorem State.noticeHalt_twin (s : State) (c : BitVec 4) (r : Bool) : (s.noticeHalt c r).twin = s.twin := by
  unfold State.noticeHalt; split <;> simp
@[simp] theorem State.noticeHalt_faces (s : State) (c : BitVec 4) (r : Bool) : (s.noticeHalt c r).faces = s.faces := by
  unfold State.noticeHalt; split <;> simp
@[simp] theorem State.noticeHalt_mem (s : State) (c : BitVec 4) (r : Bool) : (s.noticeHalt c r).mem = s.mem := by
  unfold State.noticeHalt; split <;> simp
@[simp] theorem State.noticeHalt_strm (s : State) (c : BitVec 4) (r : Bool) : (s.noticeHalt c r).strm = s.strm := by
  unfold State.noticeHalt; split <;> simp
@[simp] theorem State.noticeHalt_coll (s : State) (c : BitVec 4) (r : Bool) : (s.noticeHalt c r).coll = s.coll := by
  unfold State.noticeHalt; split <;> simp
@[simp] theorem State.noticeHalt_ports (s : State) (c : BitVec 4) (r : Bool) : (s.noticeHalt c r).fab.ports = s.fab.ports := by
  unfold State.noticeHalt; split <;> simp
@[simp] theorem State.noticeHalt_host (s : State) (c : BitVec 4) (r : Bool) : (s.noticeHalt c r).host = s.host := by
  unfold State.noticeHalt; split <;> simp
@[simp] theorem State.noticeHalt_fw (s : State) (c : BitVec 4) (r : Bool) : (s.noticeHalt c r).fw = s.fw := by
  unfold State.noticeHalt; split <;> simp
@[simp] theorem State.noticeHalt_flash (s : State) (c : BitVec 4) (r : Bool) : (s.noticeHalt c r).flash = s.flash := by
  unfold State.noticeHalt; split <;> simp
@[simp] theorem State.noticeHalt_pwr (s : State) (c : BitVec 4) (r : Bool) : (s.noticeHalt c r).pwr = s.pwr := by
  unfold State.noticeHalt; split <;> simp
@[simp] theorem State.noticeHalt_errs (s : State) (c : BitVec 4) (r : Bool) : (s.noticeHalt c r).errs = s.errs := by
  unfold State.noticeHalt; split <;> simp
@[simp] theorem State.noticeHalt_cnt (s : State) (c : BitVec 4) (r : Bool) : (s.noticeHalt c r).cnt = s.cnt := by
  unfold State.noticeHalt; split <;> simp
@[simp] theorem State.noticeHalt_bists (s : State) (c : BitVec 4) (r : Bool) : (s.noticeHalt c r).bists = s.bists := by
  unfold State.noticeHalt; split <;> simp
@[simp] theorem State.noticeHalt_loads (s : State) (c : BitVec 4) (r : Bool) : (s.noticeHalt c r).loads = s.loads := by
  unfold State.noticeHalt; split <;> simp
@[simp] theorem State.noticeHalt_free (s : State) (c : BitVec 4) (r : Bool) : (s.noticeHalt c r).free = s.free := by
  unfold State.noticeHalt; split <;> simp
@[simp] theorem State.noticeHalt_pending (s : State) (c : BitVec 4) (r : Bool) : (s.noticeHalt c r).pending = s.pending := by
  unfold State.noticeHalt; split <;> simp

/-! ### Error records (R333) -/

@[simp] theorem State.raise_cfg (s : State) (c : Nat) (u : EUnit) (a : Nat) (d : List Byte) : (s.raise c u a d).cfg = s.cfg := by
  unfold State.raise; simp only []; (repeat' split) <;> simp
@[simp] theorem State.raise_pit (s : State) (c : Nat) (u : EUnit) (a : Nat) (d : List Byte) : (s.raise c u a d).pit = s.pit := by
  unfold State.raise; simp only []; (repeat' split) <;> simp
@[simp] theorem State.raise_twin (s : State) (c : Nat) (u : EUnit) (a : Nat) (d : List Byte) : (s.raise c u a d).twin = s.twin := by
  unfold State.raise; simp only []; (repeat' split) <;> simp
@[simp] theorem State.raise_faces (s : State) (c : Nat) (u : EUnit) (a : Nat) (d : List Byte) : (s.raise c u a d).faces = s.faces := by
  unfold State.raise; simp only []; (repeat' split) <;> simp
@[simp] theorem State.raise_mem (s : State) (c : Nat) (u : EUnit) (a : Nat) (d : List Byte) : (s.raise c u a d).mem = s.mem := by
  unfold State.raise; simp only []; (repeat' split) <;> simp
@[simp] theorem State.raise_strm (s : State) (c : Nat) (u : EUnit) (a : Nat) (d : List Byte) : (s.raise c u a d).strm = s.strm := by
  unfold State.raise; simp only []; (repeat' split) <;> simp
@[simp] theorem State.raise_coll (s : State) (c : Nat) (u : EUnit) (a : Nat) (d : List Byte) : (s.raise c u a d).coll = s.coll := by
  unfold State.raise; simp only []; (repeat' split) <;> simp
@[simp] theorem State.raise_ports (s : State) (c : Nat) (u : EUnit) (a : Nat) (d : List Byte) : (s.raise c u a d).fab.ports = s.fab.ports := by
  unfold State.raise; simp only []; (repeat' split) <;> simp
@[simp] theorem State.raise_host (s : State) (c : Nat) (u : EUnit) (a : Nat) (d : List Byte) : (s.raise c u a d).host = s.host := by
  unfold State.raise; simp only []; (repeat' split) <;> simp
@[simp] theorem State.raise_fw (s : State) (c : Nat) (u : EUnit) (a : Nat) (d : List Byte) : (s.raise c u a d).fw = s.fw := by
  unfold State.raise; simp only []; (repeat' split) <;> simp
@[simp] theorem State.raise_flash (s : State) (c : Nat) (u : EUnit) (a : Nat) (d : List Byte) : (s.raise c u a d).flash = s.flash := by
  unfold State.raise; simp only []; (repeat' split) <;> simp
@[simp] theorem State.raise_pwr (s : State) (c : Nat) (u : EUnit) (a : Nat) (d : List Byte) : (s.raise c u a d).pwr = s.pwr := by
  unfold State.raise; simp only []; (repeat' split) <;> simp
@[simp] theorem State.raise_cnt (s : State) (c : Nat) (u : EUnit) (a : Nat) (d : List Byte) : (s.raise c u a d).cnt = s.cnt := by
  unfold State.raise; simp only []; (repeat' split) <;> simp
@[simp] theorem State.raise_bists (s : State) (c : Nat) (u : EUnit) (a : Nat) (d : List Byte) : (s.raise c u a d).bists = s.bists := by
  unfold State.raise; simp only []; (repeat' split) <;> simp
@[simp] theorem State.raise_loads (s : State) (c : Nat) (u : EUnit) (a : Nat) (d : List Byte) : (s.raise c u a d).loads = s.loads := by
  unfold State.raise; simp only []; (repeat' split) <;> simp
@[simp] theorem State.raise_free (s : State) (c : Nat) (u : EUnit) (a : Nat) (d : List Byte) : (s.raise c u a d).free = s.free := by
  unfold State.raise; simp only []; (repeat' split) <;> simp
@[simp] theorem State.raise_pending (s : State) (c : Nat) (u : EUnit) (a : Nat) (d : List Byte) : (s.raise c u a d).pending = s.pending := by
  unfold State.raise; simp only []; (repeat' split) <;> simp

/-! ### Memory accesses (R248, R250) -/

theorem countStacks_cells (m : Mem) (l : List Nat) : (m.countStacks l).cells = m.cells := by
  unfold Mem.countStacks
  induction l generalizing m with
  | nil => rfl
  | cons g r ih => rw [List.foldl_cons, ih]; split <;> rfl

@[simp] theorem State.raises_cfg (s : State) (c : Nat) (u : EUnit) (l : List Nat) (d : State → Nat → List Byte) :
    (l.foldl (fun s g => s.raise c u g (d s g)) s).cfg = s.cfg := by
  induction l generalizing s with
  | nil => rfl
  | cons g r ih => rw [List.foldl_cons, ih]; simp

@[simp] theorem State.raises_pit (s : State) (c : Nat) (u : EUnit) (l : List Nat) (d : State → Nat → List Byte) :
    (l.foldl (fun s g => s.raise c u g (d s g)) s).pit = s.pit := by
  induction l generalizing s with
  | nil => rfl
  | cons g r ih => rw [List.foldl_cons, ih]; simp

@[simp] theorem State.raises_twin (s : State) (c : Nat) (u : EUnit) (l : List Nat) (d : State → Nat → List Byte) :
    (l.foldl (fun s g => s.raise c u g (d s g)) s).twin = s.twin := by
  induction l generalizing s with
  | nil => rfl
  | cons g r ih => rw [List.foldl_cons, ih]; simp

@[simp] theorem State.raises_faces (s : State) (c : Nat) (u : EUnit) (l : List Nat) (d : State → Nat → List Byte) :
    (l.foldl (fun s g => s.raise c u g (d s g)) s).faces = s.faces := by
  induction l generalizing s with
  | nil => rfl
  | cons g r ih => rw [List.foldl_cons, ih]; simp

@[simp] theorem State.raises_mem (s : State) (c : Nat) (u : EUnit) (l : List Nat) (d : State → Nat → List Byte) :
    (l.foldl (fun s g => s.raise c u g (d s g)) s).mem = s.mem := by
  induction l generalizing s with
  | nil => rfl
  | cons g r ih => rw [List.foldl_cons, ih]; simp

@[simp] theorem State.raises_strm (s : State) (c : Nat) (u : EUnit) (l : List Nat) (d : State → Nat → List Byte) :
    (l.foldl (fun s g => s.raise c u g (d s g)) s).strm = s.strm := by
  induction l generalizing s with
  | nil => rfl
  | cons g r ih => rw [List.foldl_cons, ih]; simp

@[simp] theorem State.raises_coll (s : State) (c : Nat) (u : EUnit) (l : List Nat) (d : State → Nat → List Byte) :
    (l.foldl (fun s g => s.raise c u g (d s g)) s).coll = s.coll := by
  induction l generalizing s with
  | nil => rfl
  | cons g r ih => rw [List.foldl_cons, ih]; simp

@[simp] theorem State.raises_ports (s : State) (c : Nat) (u : EUnit) (l : List Nat) (d : State → Nat → List Byte) :
    (l.foldl (fun s g => s.raise c u g (d s g)) s).fab.ports = s.fab.ports := by
  induction l generalizing s with
  | nil => rfl
  | cons g r ih => rw [List.foldl_cons, ih]; simp

@[simp] theorem State.raises_host (s : State) (c : Nat) (u : EUnit) (l : List Nat) (d : State → Nat → List Byte) :
    (l.foldl (fun s g => s.raise c u g (d s g)) s).host = s.host := by
  induction l generalizing s with
  | nil => rfl
  | cons g r ih => rw [List.foldl_cons, ih]; simp

@[simp] theorem State.raises_fw (s : State) (c : Nat) (u : EUnit) (l : List Nat) (d : State → Nat → List Byte) :
    (l.foldl (fun s g => s.raise c u g (d s g)) s).fw = s.fw := by
  induction l generalizing s with
  | nil => rfl
  | cons g r ih => rw [List.foldl_cons, ih]; simp

@[simp] theorem State.raises_flash (s : State) (c : Nat) (u : EUnit) (l : List Nat) (d : State → Nat → List Byte) :
    (l.foldl (fun s g => s.raise c u g (d s g)) s).flash = s.flash := by
  induction l generalizing s with
  | nil => rfl
  | cons g r ih => rw [List.foldl_cons, ih]; simp

@[simp] theorem State.raises_pwr (s : State) (c : Nat) (u : EUnit) (l : List Nat) (d : State → Nat → List Byte) :
    (l.foldl (fun s g => s.raise c u g (d s g)) s).pwr = s.pwr := by
  induction l generalizing s with
  | nil => rfl
  | cons g r ih => rw [List.foldl_cons, ih]; simp

@[simp] theorem State.raises_cnt (s : State) (c : Nat) (u : EUnit) (l : List Nat) (d : State → Nat → List Byte) :
    (l.foldl (fun s g => s.raise c u g (d s g)) s).cnt = s.cnt := by
  induction l generalizing s with
  | nil => rfl
  | cons g r ih => rw [List.foldl_cons, ih]; simp

@[simp] theorem State.raises_bists (s : State) (c : Nat) (u : EUnit) (l : List Nat) (d : State → Nat → List Byte) :
    (l.foldl (fun s g => s.raise c u g (d s g)) s).bists = s.bists := by
  induction l generalizing s with
  | nil => rfl
  | cons g r ih => rw [List.foldl_cons, ih]; simp

@[simp] theorem State.raises_loads (s : State) (c : Nat) (u : EUnit) (l : List Nat) (d : State → Nat → List Byte) :
    (l.foldl (fun s g => s.raise c u g (d s g)) s).loads = s.loads := by
  induction l generalizing s with
  | nil => rfl
  | cons g r ih => rw [List.foldl_cons, ih]; simp

@[simp] theorem State.raises_free (s : State) (c : Nat) (u : EUnit) (l : List Nat) (d : State → Nat → List Byte) :
    (l.foldl (fun s g => s.raise c u g (d s g)) s).free = s.free := by
  induction l generalizing s with
  | nil => rfl
  | cons g r ih => rw [List.foldl_cons, ih]; simp

@[simp] theorem State.raises_pending (s : State) (c : Nat) (u : EUnit) (l : List Nat) (d : State → Nat → List Byte) :
    (l.foldl (fun s g => s.raise c u g (d s g)) s).pending = s.pending := by
  induction l generalizing s with
  | nil => rfl
  | cons g r ih => rw [List.foldl_cons, ih]; simp

@[simp] theorem State.noteReads_cfg (s : State) (u : EUnit) (rs : List (Nat × Nat)) : (s.noteReads u rs).cfg = s.cfg := by
  unfold State.noteReads
  generalize (List.filter (fun g => !s.mem.poison.contains g) (List.filter (hitsAny rs) s.mem.latentUe)) = ue
  simp only []
  generalize hs : ({ s with mem := _ } : State) = s0
  have h0 : s0.cfg = s.cfg := by rw [← hs]
  rw [← h0]; clear hs h0
  induction ue generalizing s0 with
  | nil => rfl
  | cons g r ih => rw [List.foldl_cons, ih, State.raise_cfg]
@[simp] theorem State.noteReads_pit (s : State) (u : EUnit) (rs : List (Nat × Nat)) : (s.noteReads u rs).pit = s.pit := by
  unfold State.noteReads
  generalize (List.filter (fun g => !s.mem.poison.contains g) (List.filter (hitsAny rs) s.mem.latentUe)) = ue
  simp only []
  generalize hs : ({ s with mem := _ } : State) = s0
  have h0 : s0.pit = s.pit := by rw [← hs]
  rw [← h0]; clear hs h0
  induction ue generalizing s0 with
  | nil => rfl
  | cons g r ih => rw [List.foldl_cons, ih, State.raise_pit]
@[simp] theorem State.noteReads_twin (s : State) (u : EUnit) (rs : List (Nat × Nat)) : (s.noteReads u rs).twin = s.twin := by
  unfold State.noteReads
  generalize (List.filter (fun g => !s.mem.poison.contains g) (List.filter (hitsAny rs) s.mem.latentUe)) = ue
  simp only []
  generalize hs : ({ s with mem := _ } : State) = s0
  have h0 : s0.twin = s.twin := by rw [← hs]
  rw [← h0]; clear hs h0
  induction ue generalizing s0 with
  | nil => rfl
  | cons g r ih => rw [List.foldl_cons, ih, State.raise_twin]
@[simp] theorem State.noteReads_faces (s : State) (u : EUnit) (rs : List (Nat × Nat)) : (s.noteReads u rs).faces = s.faces := by
  unfold State.noteReads
  generalize (List.filter (fun g => !s.mem.poison.contains g) (List.filter (hitsAny rs) s.mem.latentUe)) = ue
  simp only []
  generalize hs : ({ s with mem := _ } : State) = s0
  have h0 : s0.faces = s.faces := by rw [← hs]
  rw [← h0]; clear hs h0
  induction ue generalizing s0 with
  | nil => rfl
  | cons g r ih => rw [List.foldl_cons, ih, State.raise_faces]
@[simp] theorem State.noteReads_strm (s : State) (u : EUnit) (rs : List (Nat × Nat)) : (s.noteReads u rs).strm = s.strm := by
  unfold State.noteReads
  generalize (List.filter (fun g => !s.mem.poison.contains g) (List.filter (hitsAny rs) s.mem.latentUe)) = ue
  simp only []
  generalize hs : ({ s with mem := _ } : State) = s0
  have h0 : s0.strm = s.strm := by rw [← hs]
  rw [← h0]; clear hs h0
  induction ue generalizing s0 with
  | nil => rfl
  | cons g r ih => rw [List.foldl_cons, ih, State.raise_strm]
@[simp] theorem State.noteReads_coll (s : State) (u : EUnit) (rs : List (Nat × Nat)) : (s.noteReads u rs).coll = s.coll := by
  unfold State.noteReads
  generalize (List.filter (fun g => !s.mem.poison.contains g) (List.filter (hitsAny rs) s.mem.latentUe)) = ue
  simp only []
  generalize hs : ({ s with mem := _ } : State) = s0
  have h0 : s0.coll = s.coll := by rw [← hs]
  rw [← h0]; clear hs h0
  induction ue generalizing s0 with
  | nil => rfl
  | cons g r ih => rw [List.foldl_cons, ih, State.raise_coll]
@[simp] theorem State.noteReads_ports (s : State) (u : EUnit) (rs : List (Nat × Nat)) : (s.noteReads u rs).fab.ports = s.fab.ports := by
  unfold State.noteReads
  generalize (List.filter (fun g => !s.mem.poison.contains g) (List.filter (hitsAny rs) s.mem.latentUe)) = ue
  simp only []
  generalize hs : ({ s with mem := _ } : State) = s0
  have h0 : s0.fab.ports = s.fab.ports := by rw [← hs]
  rw [← h0]; clear hs h0
  induction ue generalizing s0 with
  | nil => rfl
  | cons g r ih => rw [List.foldl_cons, ih, State.raise_ports]
@[simp] theorem State.noteReads_host (s : State) (u : EUnit) (rs : List (Nat × Nat)) : (s.noteReads u rs).host = s.host := by
  unfold State.noteReads
  generalize (List.filter (fun g => !s.mem.poison.contains g) (List.filter (hitsAny rs) s.mem.latentUe)) = ue
  simp only []
  generalize hs : ({ s with mem := _ } : State) = s0
  have h0 : s0.host = s.host := by rw [← hs]
  rw [← h0]; clear hs h0
  induction ue generalizing s0 with
  | nil => rfl
  | cons g r ih => rw [List.foldl_cons, ih, State.raise_host]
@[simp] theorem State.noteReads_fw (s : State) (u : EUnit) (rs : List (Nat × Nat)) : (s.noteReads u rs).fw = s.fw := by
  unfold State.noteReads
  generalize (List.filter (fun g => !s.mem.poison.contains g) (List.filter (hitsAny rs) s.mem.latentUe)) = ue
  simp only []
  generalize hs : ({ s with mem := _ } : State) = s0
  have h0 : s0.fw = s.fw := by rw [← hs]
  rw [← h0]; clear hs h0
  induction ue generalizing s0 with
  | nil => rfl
  | cons g r ih => rw [List.foldl_cons, ih, State.raise_fw]
@[simp] theorem State.noteReads_flash (s : State) (u : EUnit) (rs : List (Nat × Nat)) : (s.noteReads u rs).flash = s.flash := by
  unfold State.noteReads
  generalize (List.filter (fun g => !s.mem.poison.contains g) (List.filter (hitsAny rs) s.mem.latentUe)) = ue
  simp only []
  generalize hs : ({ s with mem := _ } : State) = s0
  have h0 : s0.flash = s.flash := by rw [← hs]
  rw [← h0]; clear hs h0
  induction ue generalizing s0 with
  | nil => rfl
  | cons g r ih => rw [List.foldl_cons, ih, State.raise_flash]
@[simp] theorem State.noteReads_pwr (s : State) (u : EUnit) (rs : List (Nat × Nat)) : (s.noteReads u rs).pwr = s.pwr := by
  unfold State.noteReads
  generalize (List.filter (fun g => !s.mem.poison.contains g) (List.filter (hitsAny rs) s.mem.latentUe)) = ue
  simp only []
  generalize hs : ({ s with mem := _ } : State) = s0
  have h0 : s0.pwr = s.pwr := by rw [← hs]
  rw [← h0]; clear hs h0
  induction ue generalizing s0 with
  | nil => rfl
  | cons g r ih => rw [List.foldl_cons, ih, State.raise_pwr]
@[simp] theorem State.noteReads_cnt (s : State) (u : EUnit) (rs : List (Nat × Nat)) : (s.noteReads u rs).cnt = s.cnt := by
  unfold State.noteReads
  generalize (List.filter (fun g => !s.mem.poison.contains g) (List.filter (hitsAny rs) s.mem.latentUe)) = ue
  simp only []
  generalize hs : ({ s with mem := _ } : State) = s0
  have h0 : s0.cnt = s.cnt := by rw [← hs]
  rw [← h0]; clear hs h0
  induction ue generalizing s0 with
  | nil => rfl
  | cons g r ih => rw [List.foldl_cons, ih, State.raise_cnt]
@[simp] theorem State.noteReads_bists (s : State) (u : EUnit) (rs : List (Nat × Nat)) : (s.noteReads u rs).bists = s.bists := by
  unfold State.noteReads
  generalize (List.filter (fun g => !s.mem.poison.contains g) (List.filter (hitsAny rs) s.mem.latentUe)) = ue
  simp only []
  generalize hs : ({ s with mem := _ } : State) = s0
  have h0 : s0.bists = s.bists := by rw [← hs]
  rw [← h0]; clear hs h0
  induction ue generalizing s0 with
  | nil => rfl
  | cons g r ih => rw [List.foldl_cons, ih, State.raise_bists]
@[simp] theorem State.noteReads_loads (s : State) (u : EUnit) (rs : List (Nat × Nat)) : (s.noteReads u rs).loads = s.loads := by
  unfold State.noteReads
  generalize (List.filter (fun g => !s.mem.poison.contains g) (List.filter (hitsAny rs) s.mem.latentUe)) = ue
  simp only []
  generalize hs : ({ s with mem := _ } : State) = s0
  have h0 : s0.loads = s.loads := by rw [← hs]
  rw [← h0]; clear hs h0
  induction ue generalizing s0 with
  | nil => rfl
  | cons g r ih => rw [List.foldl_cons, ih, State.raise_loads]
@[simp] theorem State.noteReads_free (s : State) (u : EUnit) (rs : List (Nat × Nat)) : (s.noteReads u rs).free = s.free := by
  unfold State.noteReads
  generalize (List.filter (fun g => !s.mem.poison.contains g) (List.filter (hitsAny rs) s.mem.latentUe)) = ue
  simp only []
  generalize hs : ({ s with mem := _ } : State) = s0
  have h0 : s0.free = s.free := by rw [← hs]
  rw [← h0]; clear hs h0
  induction ue generalizing s0 with
  | nil => rfl
  | cons g r ih => rw [List.foldl_cons, ih, State.raise_free]
@[simp] theorem State.noteReads_pending (s : State) (u : EUnit) (rs : List (Nat × Nat)) : (s.noteReads u rs).pending = s.pending := by
  unfold State.noteReads
  generalize (List.filter (fun g => !s.mem.poison.contains g) (List.filter (hitsAny rs) s.mem.latentUe)) = ue
  simp only []
  generalize hs : ({ s with mem := _ } : State) = s0
  have h0 : s0.pending = s.pending := by rw [← hs]
  rw [← h0]; clear hs h0
  induction ue generalizing s0 with
  | nil => rfl
  | cons g r ih => rw [List.foldl_cons, ih, State.raise_pending]

@[simp] theorem State.freeFill_tk (s : State) (a n : Nat) : (s.freeFill a n).tk = s.tk := rfl
@[simp] theorem State.freeFill_cfg (s : State) (a n : Nat) : (s.freeFill a n).cfg = s.cfg := rfl
@[simp] theorem State.freeFill_sched (s : State) (a n : Nat) : (s.freeFill a n).sched = s.sched := rfl
@[simp] theorem State.freeFill_pit (s : State) (a n : Nat) : (s.freeFill a n).pit = s.pit := rfl
@[simp] theorem State.freeFill_twin (s : State) (a n : Nat) : (s.freeFill a n).twin = s.twin := rfl
@[simp] theorem State.freeFill_faces (s : State) (a n : Nat) : (s.freeFill a n).faces = s.faces := rfl
@[simp] theorem State.freeFill_strm (s : State) (a n : Nat) : (s.freeFill a n).strm = s.strm := rfl
@[simp] theorem State.freeFill_coll (s : State) (a n : Nat) : (s.freeFill a n).coll = s.coll := rfl
@[simp] theorem State.freeFill_fab (s : State) (a n : Nat) : (s.freeFill a n).fab = s.fab := rfl
@[simp] theorem State.freeFill_host (s : State) (a n : Nat) : (s.freeFill a n).host = s.host := rfl
@[simp] theorem State.freeFill_fw (s : State) (a n : Nat) : (s.freeFill a n).fw = s.fw := rfl
@[simp] theorem State.freeFill_flash (s : State) (a n : Nat) : (s.freeFill a n).flash = s.flash := rfl
@[simp] theorem State.freeFill_pwr (s : State) (a n : Nat) : (s.freeFill a n).pwr = s.pwr := rfl
@[simp] theorem State.freeFill_errs (s : State) (a n : Nat) : (s.freeFill a n).errs = s.errs := rfl
@[simp] theorem State.freeFill_cnt (s : State) (a n : Nat) : (s.freeFill a n).cnt = s.cnt := rfl
@[simp] theorem State.freeFill_bists (s : State) (a n : Nat) : (s.freeFill a n).bists = s.bists := rfl
@[simp] theorem State.freeFill_loads (s : State) (a n : Nat) : (s.freeFill a n).loads = s.loads := rfl
@[simp] theorem State.freeFill_out (s : State) (a n : Nat) : (s.freeFill a n).out = s.out := rfl
@[simp] theorem State.freeFill_pending (s : State) (a n : Nat) : (s.freeFill a n).pending = s.pending := rfl

@[simp] theorem State.foldWords_tk (s : State) (f : FaceId) (x : Bool) (l : List Nat) : (s.foldWords f x l).tk = s.tk := by
  unfold State.foldWords; split <;> rfl
@[simp] theorem State.foldWords_cfg (s : State) (f : FaceId) (x : Bool) (l : List Nat) : (s.foldWords f x l).cfg = s.cfg := by
  unfold State.foldWords; split <;> rfl
@[simp] theorem State.foldWords_sched (s : State) (f : FaceId) (x : Bool) (l : List Nat) : (s.foldWords f x l).sched = s.sched := by
  unfold State.foldWords; split <;> rfl
@[simp] theorem State.foldWords_pit (s : State) (f : FaceId) (x : Bool) (l : List Nat) : (s.foldWords f x l).pit = s.pit := by
  unfold State.foldWords; split <;> rfl
@[simp] theorem State.foldWords_twin (s : State) (f : FaceId) (x : Bool) (l : List Nat) : (s.foldWords f x l).twin = s.twin := by
  unfold State.foldWords; split <;> rfl
@[simp] theorem State.foldWords_mem (s : State) (f : FaceId) (x : Bool) (l : List Nat) : (s.foldWords f x l).mem = s.mem := by
  unfold State.foldWords; split <;> rfl
@[simp] theorem State.foldWords_strm (s : State) (f : FaceId) (x : Bool) (l : List Nat) : (s.foldWords f x l).strm = s.strm := by
  unfold State.foldWords; split <;> rfl
@[simp] theorem State.foldWords_coll (s : State) (f : FaceId) (x : Bool) (l : List Nat) : (s.foldWords f x l).coll = s.coll := by
  unfold State.foldWords; split <;> rfl
@[simp] theorem State.foldWords_fab (s : State) (f : FaceId) (x : Bool) (l : List Nat) : (s.foldWords f x l).fab = s.fab := by
  unfold State.foldWords; split <;> rfl
@[simp] theorem State.foldWords_host (s : State) (f : FaceId) (x : Bool) (l : List Nat) : (s.foldWords f x l).host = s.host := by
  unfold State.foldWords; split <;> rfl
@[simp] theorem State.foldWords_fw (s : State) (f : FaceId) (x : Bool) (l : List Nat) : (s.foldWords f x l).fw = s.fw := by
  unfold State.foldWords; split <;> rfl
@[simp] theorem State.foldWords_flash (s : State) (f : FaceId) (x : Bool) (l : List Nat) : (s.foldWords f x l).flash = s.flash := by
  unfold State.foldWords; split <;> rfl
@[simp] theorem State.foldWords_pwr (s : State) (f : FaceId) (x : Bool) (l : List Nat) : (s.foldWords f x l).pwr = s.pwr := by
  unfold State.foldWords; split <;> rfl
@[simp] theorem State.foldWords_errs (s : State) (f : FaceId) (x : Bool) (l : List Nat) : (s.foldWords f x l).errs = s.errs := by
  unfold State.foldWords; split <;> rfl
@[simp] theorem State.foldWords_cnt (s : State) (f : FaceId) (x : Bool) (l : List Nat) : (s.foldWords f x l).cnt = s.cnt := by
  unfold State.foldWords; split <;> rfl
@[simp] theorem State.foldWords_bists (s : State) (f : FaceId) (x : Bool) (l : List Nat) : (s.foldWords f x l).bists = s.bists := by
  unfold State.foldWords; split <;> rfl
@[simp] theorem State.foldWords_loads (s : State) (f : FaceId) (x : Bool) (l : List Nat) : (s.foldWords f x l).loads = s.loads := by
  unfold State.foldWords; split <;> rfl
@[simp] theorem State.foldWords_free (s : State) (f : FaceId) (x : Bool) (l : List Nat) : (s.foldWords f x l).free = s.free := by
  unfold State.foldWords; split <;> rfl
@[simp] theorem State.foldWords_out (s : State) (f : FaceId) (x : Bool) (l : List Nat) : (s.foldWords f x l).out = s.out := by
  unfold State.foldWords; split <;> rfl
@[simp] theorem State.foldWords_pending (s : State) (f : FaceId) (x : Bool) (l : List Nat) : (s.foldWords f x l).pending = s.pending := by
  unfold State.foldWords; split <;> rfl

@[simp] theorem State.spWrite_tk (s : State) (f : FaceId) (ws : List BitWrite) : (s.spWrite f ws).tk = s.tk := by
  simp [State.spWrite]
@[simp] theorem State.spWrite_cfg (s : State) (f : FaceId) (ws : List BitWrite) : (s.spWrite f ws).cfg = s.cfg := by
  simp [State.spWrite]
@[simp] theorem State.spWrite_sched (s : State) (f : FaceId) (ws : List BitWrite) : (s.spWrite f ws).sched = s.sched := by
  simp [State.spWrite]
@[simp] theorem State.spWrite_pit (s : State) (f : FaceId) (ws : List BitWrite) : (s.spWrite f ws).pit = s.pit := by
  simp [State.spWrite]
@[simp] theorem State.spWrite_twin (s : State) (f : FaceId) (ws : List BitWrite) : (s.spWrite f ws).twin = s.twin := by
  simp [State.spWrite]
@[simp] theorem State.spWrite_strm (s : State) (f : FaceId) (ws : List BitWrite) : (s.spWrite f ws).strm = s.strm := by
  simp [State.spWrite]
@[simp] theorem State.spWrite_coll (s : State) (f : FaceId) (ws : List BitWrite) : (s.spWrite f ws).coll = s.coll := by
  simp [State.spWrite]
@[simp] theorem State.spWrite_fab (s : State) (f : FaceId) (ws : List BitWrite) : (s.spWrite f ws).fab = s.fab := by
  simp [State.spWrite]
@[simp] theorem State.spWrite_host (s : State) (f : FaceId) (ws : List BitWrite) : (s.spWrite f ws).host = s.host := by
  simp [State.spWrite]
@[simp] theorem State.spWrite_fw (s : State) (f : FaceId) (ws : List BitWrite) : (s.spWrite f ws).fw = s.fw := by
  simp [State.spWrite]
@[simp] theorem State.spWrite_flash (s : State) (f : FaceId) (ws : List BitWrite) : (s.spWrite f ws).flash = s.flash := by
  simp [State.spWrite]
@[simp] theorem State.spWrite_pwr (s : State) (f : FaceId) (ws : List BitWrite) : (s.spWrite f ws).pwr = s.pwr := by
  simp [State.spWrite]
@[simp] theorem State.spWrite_errs (s : State) (f : FaceId) (ws : List BitWrite) : (s.spWrite f ws).errs = s.errs := by
  simp [State.spWrite]
@[simp] theorem State.spWrite_cnt (s : State) (f : FaceId) (ws : List BitWrite) : (s.spWrite f ws).cnt = s.cnt := by
  simp [State.spWrite]
@[simp] theorem State.spWrite_bists (s : State) (f : FaceId) (ws : List BitWrite) : (s.spWrite f ws).bists = s.bists := by
  simp [State.spWrite]
@[simp] theorem State.spWrite_loads (s : State) (f : FaceId) (ws : List BitWrite) : (s.spWrite f ws).loads = s.loads := by
  simp [State.spWrite]
@[simp] theorem State.spWrite_free (s : State) (f : FaceId) (ws : List BitWrite) : (s.spWrite f ws).free = s.free := by
  simp [State.spWrite]
@[simp] theorem State.spWrite_out (s : State) (f : FaceId) (ws : List BitWrite) : (s.spWrite f ws).out = s.out := by
  simp [State.spWrite]
@[simp] theorem State.spWrite_pending (s : State) (f : FaceId) (ws : List BitWrite) : (s.spWrite f ws).pending = s.pending := by
  simp [State.spWrite]

@[simp] theorem State.spWrite_mem (s : State) (f : FaceId) (ws : List BitWrite) : (s.spWrite f ws).mem = s.mem.write ws := by
  simp [State.spWrite]

@[simp] theorem State.spBytes_tk (s : State) (f : FaceId) (o : Nat) (b : List Byte) : (s.spBytes f o b).tk = s.tk := by
  simp [State.spBytes]
@[simp] theorem State.spBytes_cfg (s : State) (f : FaceId) (o : Nat) (b : List Byte) : (s.spBytes f o b).cfg = s.cfg := by
  simp [State.spBytes]
@[simp] theorem State.spBytes_sched (s : State) (f : FaceId) (o : Nat) (b : List Byte) : (s.spBytes f o b).sched = s.sched := by
  simp [State.spBytes]
@[simp] theorem State.spBytes_pit (s : State) (f : FaceId) (o : Nat) (b : List Byte) : (s.spBytes f o b).pit = s.pit := by
  simp [State.spBytes]
@[simp] theorem State.spBytes_twin (s : State) (f : FaceId) (o : Nat) (b : List Byte) : (s.spBytes f o b).twin = s.twin := by
  simp [State.spBytes]
@[simp] theorem State.spBytes_strm (s : State) (f : FaceId) (o : Nat) (b : List Byte) : (s.spBytes f o b).strm = s.strm := by
  simp [State.spBytes]
@[simp] theorem State.spBytes_coll (s : State) (f : FaceId) (o : Nat) (b : List Byte) : (s.spBytes f o b).coll = s.coll := by
  simp [State.spBytes]
@[simp] theorem State.spBytes_fab (s : State) (f : FaceId) (o : Nat) (b : List Byte) : (s.spBytes f o b).fab = s.fab := by
  simp [State.spBytes]
@[simp] theorem State.spBytes_host (s : State) (f : FaceId) (o : Nat) (b : List Byte) : (s.spBytes f o b).host = s.host := by
  simp [State.spBytes]
@[simp] theorem State.spBytes_fw (s : State) (f : FaceId) (o : Nat) (b : List Byte) : (s.spBytes f o b).fw = s.fw := by
  simp [State.spBytes]
@[simp] theorem State.spBytes_flash (s : State) (f : FaceId) (o : Nat) (b : List Byte) : (s.spBytes f o b).flash = s.flash := by
  simp [State.spBytes]
@[simp] theorem State.spBytes_pwr (s : State) (f : FaceId) (o : Nat) (b : List Byte) : (s.spBytes f o b).pwr = s.pwr := by
  simp [State.spBytes]
@[simp] theorem State.spBytes_errs (s : State) (f : FaceId) (o : Nat) (b : List Byte) : (s.spBytes f o b).errs = s.errs := by
  simp [State.spBytes]
@[simp] theorem State.spBytes_cnt (s : State) (f : FaceId) (o : Nat) (b : List Byte) : (s.spBytes f o b).cnt = s.cnt := by
  simp [State.spBytes]
@[simp] theorem State.spBytes_bists (s : State) (f : FaceId) (o : Nat) (b : List Byte) : (s.spBytes f o b).bists = s.bists := by
  simp [State.spBytes]
@[simp] theorem State.spBytes_loads (s : State) (f : FaceId) (o : Nat) (b : List Byte) : (s.spBytes f o b).loads = s.loads := by
  simp [State.spBytes]
@[simp] theorem State.spBytes_free (s : State) (f : FaceId) (o : Nat) (b : List Byte) : (s.spBytes f o b).free = s.free := by
  simp [State.spBytes]
@[simp] theorem State.spBytes_out (s : State) (f : FaceId) (o : Nat) (b : List Byte) : (s.spBytes f o b).out = s.out := by
  simp [State.spBytes]
@[simp] theorem State.spBytes_pending (s : State) (f : FaceId) (o : Nat) (b : List Byte) : (s.spBytes f o b).pending = s.pending := by
  simp [State.spBytes]

/-! ### Replies (R319, R321) -/

@[simp] theorem State.cqWrite_tk (s : State) (q : QueueId) (r : Reply) : (s.cqWrite q r).tk = s.tk := rfl
@[simp] theorem State.cqWrite_cfg (s : State) (q : QueueId) (r : Reply) : (s.cqWrite q r).cfg = s.cfg := rfl
@[simp] theorem State.cqWrite_sched (s : State) (q : QueueId) (r : Reply) : (s.cqWrite q r).sched = s.sched := rfl
@[simp] theorem State.cqWrite_pit (s : State) (q : QueueId) (r : Reply) : (s.cqWrite q r).pit = s.pit := rfl
@[simp] theorem State.cqWrite_twin (s : State) (q : QueueId) (r : Reply) : (s.cqWrite q r).twin = s.twin := rfl
@[simp] theorem State.cqWrite_faces (s : State) (q : QueueId) (r : Reply) : (s.cqWrite q r).faces = s.faces := rfl
@[simp] theorem State.cqWrite_mem (s : State) (q : QueueId) (r : Reply) : (s.cqWrite q r).mem = s.mem := rfl
@[simp] theorem State.cqWrite_strm (s : State) (q : QueueId) (r : Reply) : (s.cqWrite q r).strm = s.strm := rfl
@[simp] theorem State.cqWrite_coll (s : State) (q : QueueId) (r : Reply) : (s.cqWrite q r).coll = s.coll := rfl
@[simp] theorem State.cqWrite_fab (s : State) (q : QueueId) (r : Reply) : (s.cqWrite q r).fab = s.fab := rfl
@[simp] theorem State.cqWrite_fw (s : State) (q : QueueId) (r : Reply) : (s.cqWrite q r).fw = s.fw := rfl
@[simp] theorem State.cqWrite_flash (s : State) (q : QueueId) (r : Reply) : (s.cqWrite q r).flash = s.flash := rfl
@[simp] theorem State.cqWrite_pwr (s : State) (q : QueueId) (r : Reply) : (s.cqWrite q r).pwr = s.pwr := rfl
@[simp] theorem State.cqWrite_errs (s : State) (q : QueueId) (r : Reply) : (s.cqWrite q r).errs = s.errs := rfl
@[simp] theorem State.cqWrite_cnt (s : State) (q : QueueId) (r : Reply) : (s.cqWrite q r).cnt = s.cnt := rfl
@[simp] theorem State.cqWrite_bists (s : State) (q : QueueId) (r : Reply) : (s.cqWrite q r).bists = s.bists := rfl
@[simp] theorem State.cqWrite_loads (s : State) (q : QueueId) (r : Reply) : (s.cqWrite q r).loads = s.loads := rfl
@[simp] theorem State.cqWrite_free (s : State) (q : QueueId) (r : Reply) : (s.cqWrite q r).free = s.free := rfl
@[simp] theorem State.cqWrite_pending (s : State) (q : QueueId) (r : Reply) : (s.cqWrite q r).pending = s.pending := rfl

@[simp] theorem State.deliver_tk (s : State) (r : Reply) : (s.deliver r).tk = s.tk := by
  unfold State.deliver; simp only []; (repeat' split) <;> simp
@[simp] theorem State.deliver_sched (s : State) (r : Reply) : (s.deliver r).sched = s.sched := by
  unfold State.deliver; simp only []; (repeat' split) <;> simp
@[simp] theorem State.deliver_pit (s : State) (r : Reply) : (s.deliver r).pit = s.pit := by
  unfold State.deliver; simp only []; (repeat' split) <;> simp
@[simp] theorem State.deliver_twin (s : State) (r : Reply) : (s.deliver r).twin = s.twin := by
  unfold State.deliver; simp only []; (repeat' split) <;> simp
@[simp] theorem State.deliver_faces (s : State) (r : Reply) : (s.deliver r).faces = s.faces := by
  unfold State.deliver; simp only []; (repeat' split) <;> simp
@[simp] theorem State.deliver_strm (s : State) (r : Reply) : (s.deliver r).strm = s.strm := by
  unfold State.deliver; simp only []; (repeat' split) <;> simp
@[simp] theorem State.deliver_coll (s : State) (r : Reply) : (s.deliver r).coll = s.coll := by
  unfold State.deliver; simp only []; (repeat' split) <;> simp
@[simp] theorem State.deliver_fw (s : State) (r : Reply) : (s.deliver r).fw = s.fw := by
  unfold State.deliver; simp only []; (repeat' split) <;> simp
@[simp] theorem State.deliver_flash (s : State) (r : Reply) : (s.deliver r).flash = s.flash := by
  unfold State.deliver; simp only []; (repeat' split) <;> simp
@[simp] theorem State.deliver_pwr (s : State) (r : Reply) : (s.deliver r).pwr = s.pwr := by
  unfold State.deliver; simp only []; (repeat' split) <;> simp
@[simp] theorem State.deliver_errs (s : State) (r : Reply) : (s.deliver r).errs = s.errs := by
  unfold State.deliver; simp only []; (repeat' split) <;> simp
@[simp] theorem State.deliver_cnt (s : State) (r : Reply) : (s.deliver r).cnt = s.cnt := by
  unfold State.deliver; simp only []; (repeat' split) <;> simp
@[simp] theorem State.deliver_bists (s : State) (r : Reply) : (s.deliver r).bists = s.bists := by
  unfold State.deliver; simp only []; (repeat' split) <;> simp
@[simp] theorem State.deliver_loads (s : State) (r : Reply) : (s.deliver r).loads = s.loads := by
  unfold State.deliver; simp only []; (repeat' split) <;> simp
@[simp] theorem State.deliver_free (s : State) (r : Reply) : (s.deliver r).free = s.free := by
  unfold State.deliver; simp only []; (repeat' split) <;> simp
@[simp] theorem State.deliver_pending (s : State) (r : Reply) : (s.deliver r).pending = s.pending := by
  unfold State.deliver; simp only []; (repeat' split) <;> simp

@[simp] theorem State.replyNow_tk (s : State) (k : CmdKey) (st : Status) (p : List Byte) : (s.replyNow k st p).tk = s.tk := by
  simp [State.replyNow]
@[simp] theorem State.replyNow_sched (s : State) (k : CmdKey) (st : Status) (p : List Byte) : (s.replyNow k st p).sched = s.sched := by
  simp [State.replyNow]
@[simp] theorem State.replyNow_pit (s : State) (k : CmdKey) (st : Status) (p : List Byte) : (s.replyNow k st p).pit = s.pit := by
  simp [State.replyNow]
@[simp] theorem State.replyNow_twin (s : State) (k : CmdKey) (st : Status) (p : List Byte) : (s.replyNow k st p).twin = s.twin := by
  simp [State.replyNow]
@[simp] theorem State.replyNow_faces (s : State) (k : CmdKey) (st : Status) (p : List Byte) : (s.replyNow k st p).faces = s.faces := by
  simp [State.replyNow]
@[simp] theorem State.replyNow_strm (s : State) (k : CmdKey) (st : Status) (p : List Byte) : (s.replyNow k st p).strm = s.strm := by
  simp [State.replyNow]
@[simp] theorem State.replyNow_coll (s : State) (k : CmdKey) (st : Status) (p : List Byte) : (s.replyNow k st p).coll = s.coll := by
  simp [State.replyNow]
@[simp] theorem State.replyNow_fw (s : State) (k : CmdKey) (st : Status) (p : List Byte) : (s.replyNow k st p).fw = s.fw := by
  simp [State.replyNow]
@[simp] theorem State.replyNow_flash (s : State) (k : CmdKey) (st : Status) (p : List Byte) : (s.replyNow k st p).flash = s.flash := by
  simp [State.replyNow]
@[simp] theorem State.replyNow_pwr (s : State) (k : CmdKey) (st : Status) (p : List Byte) : (s.replyNow k st p).pwr = s.pwr := by
  simp [State.replyNow]
@[simp] theorem State.replyNow_errs (s : State) (k : CmdKey) (st : Status) (p : List Byte) : (s.replyNow k st p).errs = s.errs := by
  simp [State.replyNow]
@[simp] theorem State.replyNow_cnt (s : State) (k : CmdKey) (st : Status) (p : List Byte) : (s.replyNow k st p).cnt = s.cnt := by
  simp [State.replyNow]
@[simp] theorem State.replyNow_bists (s : State) (k : CmdKey) (st : Status) (p : List Byte) : (s.replyNow k st p).bists = s.bists := by
  simp [State.replyNow]
@[simp] theorem State.replyNow_loads (s : State) (k : CmdKey) (st : Status) (p : List Byte) : (s.replyNow k st p).loads = s.loads := by
  simp [State.replyNow]
@[simp] theorem State.replyNow_free (s : State) (k : CmdKey) (st : Status) (p : List Byte) : (s.replyNow k st p).free = s.free := by
  simp [State.replyNow]
@[simp] theorem State.replyNow_pending (s : State) (k : CmdKey) (st : Status) (p : List Byte) : (s.replyNow k st p).pending = s.pending := by
  simp [State.replyNow]

@[simp] theorem State.finishAt_tk (s : State) (t : Ticket) (c : BitVec 32) (st : Status) (p : List Byte) : (s.finishAt t c st p).tk = s.tk := by
  simp [State.finishAt]
@[simp] theorem State.finishAt_sched (s : State) (t : Ticket) (c : BitVec 32) (st : Status) (p : List Byte) : (s.finishAt t c st p).sched = s.sched := by
  simp [State.finishAt]
@[simp] theorem State.finishAt_pit (s : State) (t : Ticket) (c : BitVec 32) (st : Status) (p : List Byte) : (s.finishAt t c st p).pit = s.pit := by
  simp [State.finishAt]
@[simp] theorem State.finishAt_twin (s : State) (t : Ticket) (c : BitVec 32) (st : Status) (p : List Byte) : (s.finishAt t c st p).twin = s.twin := by
  simp [State.finishAt]
@[simp] theorem State.finishAt_faces (s : State) (t : Ticket) (c : BitVec 32) (st : Status) (p : List Byte) : (s.finishAt t c st p).faces = s.faces := by
  simp [State.finishAt]
@[simp] theorem State.finishAt_strm (s : State) (t : Ticket) (c : BitVec 32) (st : Status) (p : List Byte) : (s.finishAt t c st p).strm = s.strm := by
  simp [State.finishAt]
@[simp] theorem State.finishAt_coll (s : State) (t : Ticket) (c : BitVec 32) (st : Status) (p : List Byte) : (s.finishAt t c st p).coll = s.coll := by
  simp [State.finishAt]
@[simp] theorem State.finishAt_fw (s : State) (t : Ticket) (c : BitVec 32) (st : Status) (p : List Byte) : (s.finishAt t c st p).fw = s.fw := by
  simp [State.finishAt]
@[simp] theorem State.finishAt_flash (s : State) (t : Ticket) (c : BitVec 32) (st : Status) (p : List Byte) : (s.finishAt t c st p).flash = s.flash := by
  simp [State.finishAt]
@[simp] theorem State.finishAt_pwr (s : State) (t : Ticket) (c : BitVec 32) (st : Status) (p : List Byte) : (s.finishAt t c st p).pwr = s.pwr := by
  simp [State.finishAt]
@[simp] theorem State.finishAt_errs (s : State) (t : Ticket) (c : BitVec 32) (st : Status) (p : List Byte) : (s.finishAt t c st p).errs = s.errs := by
  simp [State.finishAt]
@[simp] theorem State.finishAt_cnt (s : State) (t : Ticket) (c : BitVec 32) (st : Status) (p : List Byte) : (s.finishAt t c st p).cnt = s.cnt := by
  simp [State.finishAt]
@[simp] theorem State.finishAt_bists (s : State) (t : Ticket) (c : BitVec 32) (st : Status) (p : List Byte) : (s.finishAt t c st p).bists = s.bists := by
  simp [State.finishAt]
@[simp] theorem State.finishAt_loads (s : State) (t : Ticket) (c : BitVec 32) (st : Status) (p : List Byte) : (s.finishAt t c st p).loads = s.loads := by
  simp [State.finishAt]
@[simp] theorem State.finishAt_free (s : State) (t : Ticket) (c : BitVec 32) (st : Status) (p : List Byte) : (s.finishAt t c st p).free = s.free := by
  simp [State.finishAt]
@[simp] theorem State.finishAt_pending (s : State) (t : Ticket) (c : BitVec 32) (st : Status) (p : List Byte) : (s.finishAt t c st p).pending = s.pending := by
  simp [State.finishAt]

@[simp] theorem State.finish_tk (s : State) (t : Ticket) (st : Status) (p : List Byte) : (s.finish t st p).tk = s.tk := by
  simp [State.finish]
@[simp] theorem State.finish_sched (s : State) (t : Ticket) (st : Status) (p : List Byte) : (s.finish t st p).sched = s.sched := by
  simp [State.finish]
@[simp] theorem State.finish_pit (s : State) (t : Ticket) (st : Status) (p : List Byte) : (s.finish t st p).pit = s.pit := by
  simp [State.finish]
@[simp] theorem State.finish_twin (s : State) (t : Ticket) (st : Status) (p : List Byte) : (s.finish t st p).twin = s.twin := by
  simp [State.finish]
@[simp] theorem State.finish_faces (s : State) (t : Ticket) (st : Status) (p : List Byte) : (s.finish t st p).faces = s.faces := by
  simp [State.finish]
@[simp] theorem State.finish_strm (s : State) (t : Ticket) (st : Status) (p : List Byte) : (s.finish t st p).strm = s.strm := by
  simp [State.finish]
@[simp] theorem State.finish_coll (s : State) (t : Ticket) (st : Status) (p : List Byte) : (s.finish t st p).coll = s.coll := by
  simp [State.finish]
@[simp] theorem State.finish_fw (s : State) (t : Ticket) (st : Status) (p : List Byte) : (s.finish t st p).fw = s.fw := by
  simp [State.finish]
@[simp] theorem State.finish_flash (s : State) (t : Ticket) (st : Status) (p : List Byte) : (s.finish t st p).flash = s.flash := by
  simp [State.finish]
@[simp] theorem State.finish_pwr (s : State) (t : Ticket) (st : Status) (p : List Byte) : (s.finish t st p).pwr = s.pwr := by
  simp [State.finish]
@[simp] theorem State.finish_errs (s : State) (t : Ticket) (st : Status) (p : List Byte) : (s.finish t st p).errs = s.errs := by
  simp [State.finish]
@[simp] theorem State.finish_cnt (s : State) (t : Ticket) (st : Status) (p : List Byte) : (s.finish t st p).cnt = s.cnt := by
  simp [State.finish]
@[simp] theorem State.finish_bists (s : State) (t : Ticket) (st : Status) (p : List Byte) : (s.finish t st p).bists = s.bists := by
  simp [State.finish]
@[simp] theorem State.finish_loads (s : State) (t : Ticket) (st : Status) (p : List Byte) : (s.finish t st p).loads = s.loads := by
  simp [State.finish]
@[simp] theorem State.finish_free (s : State) (t : Ticket) (st : Status) (p : List Byte) : (s.finish t st p).free = s.free := by
  simp [State.finish]
@[simp] theorem State.finish_pending (s : State) (t : Ticket) (st : Status) (p : List Byte) : (s.finish t st p).pending = s.pending := by
  simp [State.finish]

/-! ### Ports and hellos (R264, R265) -/

@[simp] theorem State.enqueue_tk (s : State) (p : PortId) (o : Bool) (c : BitVec 2) (l : List Flit) : (s.enqueue p o c l).tk = s.tk := rfl
@[simp] theorem State.enqueue_cfg (s : State) (p : PortId) (o : Bool) (c : BitVec 2) (l : List Flit) : (s.enqueue p o c l).cfg = s.cfg := rfl
@[simp] theorem State.enqueue_sched (s : State) (p : PortId) (o : Bool) (c : BitVec 2) (l : List Flit) : (s.enqueue p o c l).sched = s.sched := rfl
@[simp] theorem State.enqueue_pit (s : State) (p : PortId) (o : Bool) (c : BitVec 2) (l : List Flit) : (s.enqueue p o c l).pit = s.pit := rfl
@[simp] theorem State.enqueue_twin (s : State) (p : PortId) (o : Bool) (c : BitVec 2) (l : List Flit) : (s.enqueue p o c l).twin = s.twin := rfl
@[simp] theorem State.enqueue_faces (s : State) (p : PortId) (o : Bool) (c : BitVec 2) (l : List Flit) : (s.enqueue p o c l).faces = s.faces := rfl
@[simp] theorem State.enqueue_mem (s : State) (p : PortId) (o : Bool) (c : BitVec 2) (l : List Flit) : (s.enqueue p o c l).mem = s.mem := rfl
@[simp] theorem State.enqueue_strm (s : State) (p : PortId) (o : Bool) (c : BitVec 2) (l : List Flit) : (s.enqueue p o c l).strm = s.strm := rfl
@[simp] theorem State.enqueue_coll (s : State) (p : PortId) (o : Bool) (c : BitVec 2) (l : List Flit) : (s.enqueue p o c l).coll = s.coll := rfl
@[simp] theorem State.enqueue_host (s : State) (p : PortId) (o : Bool) (c : BitVec 2) (l : List Flit) : (s.enqueue p o c l).host = s.host := rfl
@[simp] theorem State.enqueue_fw (s : State) (p : PortId) (o : Bool) (c : BitVec 2) (l : List Flit) : (s.enqueue p o c l).fw = s.fw := rfl
@[simp] theorem State.enqueue_flash (s : State) (p : PortId) (o : Bool) (c : BitVec 2) (l : List Flit) : (s.enqueue p o c l).flash = s.flash := rfl
@[simp] theorem State.enqueue_pwr (s : State) (p : PortId) (o : Bool) (c : BitVec 2) (l : List Flit) : (s.enqueue p o c l).pwr = s.pwr := rfl
@[simp] theorem State.enqueue_errs (s : State) (p : PortId) (o : Bool) (c : BitVec 2) (l : List Flit) : (s.enqueue p o c l).errs = s.errs := rfl
@[simp] theorem State.enqueue_cnt (s : State) (p : PortId) (o : Bool) (c : BitVec 2) (l : List Flit) : (s.enqueue p o c l).cnt = s.cnt := rfl
@[simp] theorem State.enqueue_bists (s : State) (p : PortId) (o : Bool) (c : BitVec 2) (l : List Flit) : (s.enqueue p o c l).bists = s.bists := rfl
@[simp] theorem State.enqueue_loads (s : State) (p : PortId) (o : Bool) (c : BitVec 2) (l : List Flit) : (s.enqueue p o c l).loads = s.loads := rfl
@[simp] theorem State.enqueue_free (s : State) (p : PortId) (o : Bool) (c : BitVec 2) (l : List Flit) : (s.enqueue p o c l).free = s.free := rfl
@[simp] theorem State.enqueue_out (s : State) (p : PortId) (o : Bool) (c : BitVec 2) (l : List Flit) : (s.enqueue p o c l).out = s.out := rfl
@[simp] theorem State.enqueue_pending (s : State) (p : PortId) (o : Bool) (c : BitVec 2) (l : List Flit) : (s.enqueue p o c l).pending = s.pending := rfl

@[simp] theorem State.sendHello_tk (s : State) (p : PortId) : (s.sendHello p).tk = s.tk := by
  unfold State.sendHello; split <;> rfl
@[simp] theorem State.sendHello_cfg (s : State) (p : PortId) : (s.sendHello p).cfg = s.cfg := by
  unfold State.sendHello; split <;> rfl
@[simp] theorem State.sendHello_sched (s : State) (p : PortId) : (s.sendHello p).sched = s.sched := by
  unfold State.sendHello; split <;> rfl
@[simp] theorem State.sendHello_pit (s : State) (p : PortId) : (s.sendHello p).pit = s.pit := by
  unfold State.sendHello; split <;> rfl
@[simp] theorem State.sendHello_twin (s : State) (p : PortId) : (s.sendHello p).twin = s.twin := by
  unfold State.sendHello; split <;> rfl
@[simp] theorem State.sendHello_faces (s : State) (p : PortId) : (s.sendHello p).faces = s.faces := by
  unfold State.sendHello; split <;> rfl
@[simp] theorem State.sendHello_mem (s : State) (p : PortId) : (s.sendHello p).mem = s.mem := by
  unfold State.sendHello; split <;> rfl
@[simp] theorem State.sendHello_strm (s : State) (p : PortId) : (s.sendHello p).strm = s.strm := by
  unfold State.sendHello; split <;> rfl
@[simp] theorem State.sendHello_coll (s : State) (p : PortId) : (s.sendHello p).coll = s.coll := by
  unfold State.sendHello; split <;> rfl
@[simp] theorem State.sendHello_host (s : State) (p : PortId) : (s.sendHello p).host = s.host := by
  unfold State.sendHello; split <;> rfl
@[simp] theorem State.sendHello_fw (s : State) (p : PortId) : (s.sendHello p).fw = s.fw := by
  unfold State.sendHello; split <;> rfl
@[simp] theorem State.sendHello_flash (s : State) (p : PortId) : (s.sendHello p).flash = s.flash := by
  unfold State.sendHello; split <;> rfl
@[simp] theorem State.sendHello_pwr (s : State) (p : PortId) : (s.sendHello p).pwr = s.pwr := by
  unfold State.sendHello; split <;> rfl
@[simp] theorem State.sendHello_errs (s : State) (p : PortId) : (s.sendHello p).errs = s.errs := by
  unfold State.sendHello; split <;> rfl
@[simp] theorem State.sendHello_cnt (s : State) (p : PortId) : (s.sendHello p).cnt = s.cnt := by
  unfold State.sendHello; split <;> rfl
@[simp] theorem State.sendHello_bists (s : State) (p : PortId) : (s.sendHello p).bists = s.bists := by
  unfold State.sendHello; split <;> rfl
@[simp] theorem State.sendHello_loads (s : State) (p : PortId) : (s.sendHello p).loads = s.loads := by
  unfold State.sendHello; split <;> rfl
@[simp] theorem State.sendHello_free (s : State) (p : PortId) : (s.sendHello p).free = s.free := by
  unfold State.sendHello; split <;> rfl
@[simp] theorem State.sendHello_out (s : State) (p : PortId) : (s.sendHello p).out = s.out := by
  unfold State.sendHello; split <;> rfl
@[simp] theorem State.sendHello_pending (s : State) (p : PortId) : (s.sendHello p).pending = s.pending := by
  unfold State.sendHello; split <;> rfl

@[simp] theorem State.sendHellos_tk (s : State) : s.sendHellos.tk = s.tk := by
  unfold State.sendHellos
  generalize allPorts = l
  induction l generalizing s with
  | nil => rfl
  | cons p r ih => rw [List.foldl_cons, ih]; simp

@[simp] theorem State.sendHellos_cfg (s : State) : s.sendHellos.cfg = s.cfg := by
  unfold State.sendHellos
  generalize allPorts = l
  induction l generalizing s with
  | nil => rfl
  | cons p r ih => rw [List.foldl_cons, ih]; simp

@[simp] theorem State.sendHellos_sched (s : State) : s.sendHellos.sched = s.sched := by
  unfold State.sendHellos
  generalize allPorts = l
  induction l generalizing s with
  | nil => rfl
  | cons p r ih => rw [List.foldl_cons, ih]; simp

@[simp] theorem State.sendHellos_pit (s : State) : s.sendHellos.pit = s.pit := by
  unfold State.sendHellos
  generalize allPorts = l
  induction l generalizing s with
  | nil => rfl
  | cons p r ih => rw [List.foldl_cons, ih]; simp

@[simp] theorem State.sendHellos_twin (s : State) : s.sendHellos.twin = s.twin := by
  unfold State.sendHellos
  generalize allPorts = l
  induction l generalizing s with
  | nil => rfl
  | cons p r ih => rw [List.foldl_cons, ih]; simp

@[simp] theorem State.sendHellos_faces (s : State) : s.sendHellos.faces = s.faces := by
  unfold State.sendHellos
  generalize allPorts = l
  induction l generalizing s with
  | nil => rfl
  | cons p r ih => rw [List.foldl_cons, ih]; simp

@[simp] theorem State.sendHellos_mem (s : State) : s.sendHellos.mem = s.mem := by
  unfold State.sendHellos
  generalize allPorts = l
  induction l generalizing s with
  | nil => rfl
  | cons p r ih => rw [List.foldl_cons, ih]; simp

@[simp] theorem State.sendHellos_strm (s : State) : s.sendHellos.strm = s.strm := by
  unfold State.sendHellos
  generalize allPorts = l
  induction l generalizing s with
  | nil => rfl
  | cons p r ih => rw [List.foldl_cons, ih]; simp

@[simp] theorem State.sendHellos_coll (s : State) : s.sendHellos.coll = s.coll := by
  unfold State.sendHellos
  generalize allPorts = l
  induction l generalizing s with
  | nil => rfl
  | cons p r ih => rw [List.foldl_cons, ih]; simp

@[simp] theorem State.sendHellos_host (s : State) : s.sendHellos.host = s.host := by
  unfold State.sendHellos
  generalize allPorts = l
  induction l generalizing s with
  | nil => rfl
  | cons p r ih => rw [List.foldl_cons, ih]; simp

@[simp] theorem State.sendHellos_fw (s : State) : s.sendHellos.fw = s.fw := by
  unfold State.sendHellos
  generalize allPorts = l
  induction l generalizing s with
  | nil => rfl
  | cons p r ih => rw [List.foldl_cons, ih]; simp

@[simp] theorem State.sendHellos_flash (s : State) : s.sendHellos.flash = s.flash := by
  unfold State.sendHellos
  generalize allPorts = l
  induction l generalizing s with
  | nil => rfl
  | cons p r ih => rw [List.foldl_cons, ih]; simp

@[simp] theorem State.sendHellos_pwr (s : State) : s.sendHellos.pwr = s.pwr := by
  unfold State.sendHellos
  generalize allPorts = l
  induction l generalizing s with
  | nil => rfl
  | cons p r ih => rw [List.foldl_cons, ih]; simp

@[simp] theorem State.sendHellos_errs (s : State) : s.sendHellos.errs = s.errs := by
  unfold State.sendHellos
  generalize allPorts = l
  induction l generalizing s with
  | nil => rfl
  | cons p r ih => rw [List.foldl_cons, ih]; simp

@[simp] theorem State.sendHellos_cnt (s : State) : s.sendHellos.cnt = s.cnt := by
  unfold State.sendHellos
  generalize allPorts = l
  induction l generalizing s with
  | nil => rfl
  | cons p r ih => rw [List.foldl_cons, ih]; simp

@[simp] theorem State.sendHellos_bists (s : State) : s.sendHellos.bists = s.bists := by
  unfold State.sendHellos
  generalize allPorts = l
  induction l generalizing s with
  | nil => rfl
  | cons p r ih => rw [List.foldl_cons, ih]; simp

@[simp] theorem State.sendHellos_loads (s : State) : s.sendHellos.loads = s.loads := by
  unfold State.sendHellos
  generalize allPorts = l
  induction l generalizing s with
  | nil => rfl
  | cons p r ih => rw [List.foldl_cons, ih]; simp

@[simp] theorem State.sendHellos_free (s : State) : s.sendHellos.free = s.free := by
  unfold State.sendHellos
  generalize allPorts = l
  induction l generalizing s with
  | nil => rfl
  | cons p r ih => rw [List.foldl_cons, ih]; simp

@[simp] theorem State.sendHellos_out (s : State) : s.sendHellos.out = s.out := by
  unfold State.sendHellos
  generalize allPorts = l
  induction l generalizing s with
  | nil => rfl
  | cons p r ih => rw [List.foldl_cons, ih]; simp

@[simp] theorem State.sendHellos_pending (s : State) : s.sendHellos.pending = s.pending := by
  unfold State.sendHellos
  generalize allPorts = l
  induction l generalizing s with
  | nil => rfl
  | cons p r ih => rw [List.foldl_cons, ih]; simp

@[simp] theorem State.helloChange_tk (o s : State) : (State.helloChange o s).tk = s.tk := by
  unfold State.helloChange; split <;> simp
@[simp] theorem State.helloChange_cfg (o s : State) : (State.helloChange o s).cfg = s.cfg := by
  unfold State.helloChange; split <;> simp
@[simp] theorem State.helloChange_sched (o s : State) : (State.helloChange o s).sched = s.sched := by
  unfold State.helloChange; split <;> simp
@[simp] theorem State.helloChange_pit (o s : State) : (State.helloChange o s).pit = s.pit := by
  unfold State.helloChange; split <;> simp
@[simp] theorem State.helloChange_twin (o s : State) : (State.helloChange o s).twin = s.twin := by
  unfold State.helloChange; split <;> simp
@[simp] theorem State.helloChange_faces (o s : State) : (State.helloChange o s).faces = s.faces := by
  unfold State.helloChange; split <;> simp
@[simp] theorem State.helloChange_mem (o s : State) : (State.helloChange o s).mem = s.mem := by
  unfold State.helloChange; split <;> simp
@[simp] theorem State.helloChange_strm (o s : State) : (State.helloChange o s).strm = s.strm := by
  unfold State.helloChange; split <;> simp
@[simp] theorem State.helloChange_coll (o s : State) : (State.helloChange o s).coll = s.coll := by
  unfold State.helloChange; split <;> simp
@[simp] theorem State.helloChange_host (o s : State) : (State.helloChange o s).host = s.host := by
  unfold State.helloChange; split <;> simp
@[simp] theorem State.helloChange_fw (o s : State) : (State.helloChange o s).fw = s.fw := by
  unfold State.helloChange; split <;> simp
@[simp] theorem State.helloChange_flash (o s : State) : (State.helloChange o s).flash = s.flash := by
  unfold State.helloChange; split <;> simp
@[simp] theorem State.helloChange_pwr (o s : State) : (State.helloChange o s).pwr = s.pwr := by
  unfold State.helloChange; split <;> simp
@[simp] theorem State.helloChange_errs (o s : State) : (State.helloChange o s).errs = s.errs := by
  unfold State.helloChange; split <;> simp
@[simp] theorem State.helloChange_cnt (o s : State) : (State.helloChange o s).cnt = s.cnt := by
  unfold State.helloChange; split <;> simp
@[simp] theorem State.helloChange_bists (o s : State) : (State.helloChange o s).bists = s.bists := by
  unfold State.helloChange; split <;> simp
@[simp] theorem State.helloChange_loads (o s : State) : (State.helloChange o s).loads = s.loads := by
  unfold State.helloChange; split <;> simp
@[simp] theorem State.helloChange_free (o s : State) : (State.helloChange o s).free = s.free := by
  unfold State.helloChange; split <;> simp
@[simp] theorem State.helloChange_out (o s : State) : (State.helloChange o s).out = s.out := by
  unfold State.helloChange; split <;> simp
@[simp] theorem State.helloChange_pending (o s : State) : (State.helloChange o s).pending = s.pending := by
  unfold State.helloChange; split <;> simp

@[simp] theorem State.setDepth_cfg (s : State) (d : Nat) : (s.setDepth d).cfg = s.cfg := by
  unfold State.setDepth; simp only []; split <;> simp
@[simp] theorem State.setDepth_pit (s : State) (d : Nat) : (s.setDepth d).pit = s.pit := by
  unfold State.setDepth; simp only []; split <;> simp
@[simp] theorem State.setDepth_twin (s : State) (d : Nat) : (s.setDepth d).twin = s.twin := by
  unfold State.setDepth; simp only []; split <;> simp
@[simp] theorem State.setDepth_faces (s : State) (d : Nat) : (s.setDepth d).faces = s.faces := by
  unfold State.setDepth; simp only []; split <;> simp
@[simp] theorem State.setDepth_mem (s : State) (d : Nat) : (s.setDepth d).mem = s.mem := by
  unfold State.setDepth; simp only []; split <;> simp
@[simp] theorem State.setDepth_strm (s : State) (d : Nat) : (s.setDepth d).strm = s.strm := by
  unfold State.setDepth; simp only []; split <;> simp
@[simp] theorem State.setDepth_coll (s : State) (d : Nat) : (s.setDepth d).coll = s.coll := by
  unfold State.setDepth; simp only []; split <;> simp
@[simp] theorem State.setDepth_host (s : State) (d : Nat) : (s.setDepth d).host = s.host := by
  unfold State.setDepth; simp only []; split <;> simp
@[simp] theorem State.setDepth_fw (s : State) (d : Nat) : (s.setDepth d).fw = s.fw := by
  unfold State.setDepth; simp only []; split <;> simp
@[simp] theorem State.setDepth_flash (s : State) (d : Nat) : (s.setDepth d).flash = s.flash := by
  unfold State.setDepth; simp only []; split <;> simp
@[simp] theorem State.setDepth_pwr (s : State) (d : Nat) : (s.setDepth d).pwr = s.pwr := by
  unfold State.setDepth; simp only []; split <;> simp
@[simp] theorem State.setDepth_cnt (s : State) (d : Nat) : (s.setDepth d).cnt = s.cnt := by
  unfold State.setDepth; simp only []; split <;> simp
@[simp] theorem State.setDepth_bists (s : State) (d : Nat) : (s.setDepth d).bists = s.bists := by
  unfold State.setDepth; simp only []; split <;> simp
@[simp] theorem State.setDepth_loads (s : State) (d : Nat) : (s.setDepth d).loads = s.loads := by
  unfold State.setDepth; simp only []; split <;> simp
@[simp] theorem State.setDepth_free (s : State) (d : Nat) : (s.setDepth d).free = s.free := by
  unfold State.setDepth; simp only []; split <;> simp
@[simp] theorem State.setDepth_pending (s : State) (d : Nat) : (s.setDepth d).pending = s.pending := by
  unfold State.setDepth; simp only []; split <;> simp

@[simp] theorem State.reparent_cfg (s : State) : (s.reparent).cfg = s.cfg := by
  unfold State.reparent; (repeat' split) <;> simp
@[simp] theorem State.reparent_pit (s : State) : (s.reparent).pit = s.pit := by
  unfold State.reparent; (repeat' split) <;> simp
@[simp] theorem State.reparent_twin (s : State) : (s.reparent).twin = s.twin := by
  unfold State.reparent; (repeat' split) <;> simp
@[simp] theorem State.reparent_faces (s : State) : (s.reparent).faces = s.faces := by
  unfold State.reparent; (repeat' split) <;> simp
@[simp] theorem State.reparent_mem (s : State) : (s.reparent).mem = s.mem := by
  unfold State.reparent; (repeat' split) <;> simp
@[simp] theorem State.reparent_strm (s : State) : (s.reparent).strm = s.strm := by
  unfold State.reparent; (repeat' split) <;> simp
@[simp] theorem State.reparent_coll (s : State) : (s.reparent).coll = s.coll := by
  unfold State.reparent; (repeat' split) <;> simp
@[simp] theorem State.reparent_host (s : State) : (s.reparent).host = s.host := by
  unfold State.reparent; (repeat' split) <;> simp
@[simp] theorem State.reparent_fw (s : State) : (s.reparent).fw = s.fw := by
  unfold State.reparent; (repeat' split) <;> simp
@[simp] theorem State.reparent_flash (s : State) : (s.reparent).flash = s.flash := by
  unfold State.reparent; (repeat' split) <;> simp
@[simp] theorem State.reparent_pwr (s : State) : (s.reparent).pwr = s.pwr := by
  unfold State.reparent; (repeat' split) <;> simp
@[simp] theorem State.reparent_cnt (s : State) : (s.reparent).cnt = s.cnt := by
  unfold State.reparent; (repeat' split) <;> simp
@[simp] theorem State.reparent_bists (s : State) : (s.reparent).bists = s.bists := by
  unfold State.reparent; (repeat' split) <;> simp
@[simp] theorem State.reparent_loads (s : State) : (s.reparent).loads = s.loads := by
  unfold State.reparent; (repeat' split) <;> simp
@[simp] theorem State.reparent_free (s : State) : (s.reparent).free = s.free := by
  unfold State.reparent; (repeat' split) <;> simp
@[simp] theorem State.reparent_pending (s : State) : (s.reparent).pending = s.pending := by
  unfold State.reparent; (repeat' split) <;> simp

@[simp] theorem State.setLink_pit (s : State) (p : PortId) (x : LinkSt) : (s.setLink p x).pit = s.pit := by
  unfold State.setLink; simp only []; (repeat' split) <;> simp
@[simp] theorem State.setLink_twin (s : State) (p : PortId) (x : LinkSt) : (s.setLink p x).twin = s.twin := by
  unfold State.setLink; simp only []; (repeat' split) <;> simp
@[simp] theorem State.setLink_faces (s : State) (p : PortId) (x : LinkSt) : (s.setLink p x).faces = s.faces := by
  unfold State.setLink; simp only []; (repeat' split) <;> simp
@[simp] theorem State.setLink_strm (s : State) (p : PortId) (x : LinkSt) : (s.setLink p x).strm = s.strm := by
  unfold State.setLink; simp only []; (repeat' split) <;> simp
@[simp] theorem State.setLink_coll (s : State) (p : PortId) (x : LinkSt) : (s.setLink p x).coll = s.coll := by
  unfold State.setLink; simp only []; (repeat' split) <;> simp
@[simp] theorem State.setLink_host (s : State) (p : PortId) (x : LinkSt) : (s.setLink p x).host = s.host := by
  unfold State.setLink; simp only []; (repeat' split) <;> simp
@[simp] theorem State.setLink_fw (s : State) (p : PortId) (x : LinkSt) : (s.setLink p x).fw = s.fw := by
  unfold State.setLink; simp only []; (repeat' split) <;> simp
@[simp] theorem State.setLink_flash (s : State) (p : PortId) (x : LinkSt) : (s.setLink p x).flash = s.flash := by
  unfold State.setLink; simp only []; (repeat' split) <;> simp
@[simp] theorem State.setLink_pwr (s : State) (p : PortId) (x : LinkSt) : (s.setLink p x).pwr = s.pwr := by
  unfold State.setLink; simp only []; (repeat' split) <;> simp
@[simp] theorem State.setLink_cnt (s : State) (p : PortId) (x : LinkSt) : (s.setLink p x).cnt = s.cnt := by
  unfold State.setLink; simp only []; (repeat' split) <;> simp
@[simp] theorem State.setLink_bists (s : State) (p : PortId) (x : LinkSt) : (s.setLink p x).bists = s.bists := by
  unfold State.setLink; simp only []; (repeat' split) <;> simp
@[simp] theorem State.setLink_loads (s : State) (p : PortId) (x : LinkSt) : (s.setLink p x).loads = s.loads := by
  unfold State.setLink; simp only []; (repeat' split) <;> simp
@[simp] theorem State.setLink_free (s : State) (p : PortId) (x : LinkSt) : (s.setLink p x).free = s.free := by
  unfold State.setLink; simp only []; (repeat' split) <;> simp
@[simp] theorem State.setLink_pending (s : State) (p : PortId) (x : LinkSt) : (s.setLink p x).pending = s.pending := by
  unfold State.setLink; simp only []; (repeat' split) <;> simp

@[simp] theorem State.linkRecord_cfg (s : State) (p : PortId) (a b : LinkSt) : (s.linkRecord p a b).cfg = s.cfg := by
  simp [State.linkRecord]
@[simp] theorem State.linkRecord_pit (s : State) (p : PortId) (a b : LinkSt) : (s.linkRecord p a b).pit = s.pit := by
  simp [State.linkRecord]
@[simp] theorem State.linkRecord_twin (s : State) (p : PortId) (a b : LinkSt) : (s.linkRecord p a b).twin = s.twin := by
  simp [State.linkRecord]
@[simp] theorem State.linkRecord_faces (s : State) (p : PortId) (a b : LinkSt) : (s.linkRecord p a b).faces = s.faces := by
  simp [State.linkRecord]
@[simp] theorem State.linkRecord_mem (s : State) (p : PortId) (a b : LinkSt) : (s.linkRecord p a b).mem = s.mem := by
  simp [State.linkRecord]
@[simp] theorem State.linkRecord_strm (s : State) (p : PortId) (a b : LinkSt) : (s.linkRecord p a b).strm = s.strm := by
  simp [State.linkRecord]
@[simp] theorem State.linkRecord_coll (s : State) (p : PortId) (a b : LinkSt) : (s.linkRecord p a b).coll = s.coll := by
  simp [State.linkRecord]
@[simp] theorem State.linkRecord_ports (s : State) (p : PortId) (a b : LinkSt) : (s.linkRecord p a b).fab.ports = s.fab.ports := by
  simp [State.linkRecord]
@[simp] theorem State.linkRecord_host (s : State) (p : PortId) (a b : LinkSt) : (s.linkRecord p a b).host = s.host := by
  simp [State.linkRecord]
@[simp] theorem State.linkRecord_fw (s : State) (p : PortId) (a b : LinkSt) : (s.linkRecord p a b).fw = s.fw := by
  simp [State.linkRecord]
@[simp] theorem State.linkRecord_flash (s : State) (p : PortId) (a b : LinkSt) : (s.linkRecord p a b).flash = s.flash := by
  simp [State.linkRecord]
@[simp] theorem State.linkRecord_pwr (s : State) (p : PortId) (a b : LinkSt) : (s.linkRecord p a b).pwr = s.pwr := by
  simp [State.linkRecord]
@[simp] theorem State.linkRecord_cnt (s : State) (p : PortId) (a b : LinkSt) : (s.linkRecord p a b).cnt = s.cnt := by
  simp [State.linkRecord]
@[simp] theorem State.linkRecord_bists (s : State) (p : PortId) (a b : LinkSt) : (s.linkRecord p a b).bists = s.bists := by
  simp [State.linkRecord]
@[simp] theorem State.linkRecord_loads (s : State) (p : PortId) (a b : LinkSt) : (s.linkRecord p a b).loads = s.loads := by
  simp [State.linkRecord]
@[simp] theorem State.linkRecord_free (s : State) (p : PortId) (a b : LinkSt) : (s.linkRecord p a b).free = s.free := by
  simp [State.linkRecord]
@[simp] theorem State.linkRecord_pending (s : State) (p : PortId) (a b : LinkSt) : (s.linkRecord p a b).pending = s.pending := by
  simp [State.linkRecord]

end Sys2Proof.Machine
end

