-- ==== Sys2Proof/Laws/Invariant.lean ====
section
/-! SUPPORT. Each shared operation of the module keeps the invariant `State.wf`. -/

namespace Sys2Proof.Machine

theorem State.wf_iff (s : State) : s.wf = true ↔ Memory.wf s.mem = true ∧ swf (0 : Byte) s.host.hostMem = true ∧ s.faces.length = 96
    ∧ s.flash.repairs.length = 96 ∧ s.host.queues.length = 64 ∧ s.fab.ports.length = 6 := by
  simp [State.wf, and_assoc]

/-- A state with the same memory, host, Faces, repair records and ports meets the invariant as the other does. -/
theorem State.wf_congr (s t : State) (h1 : t.mem = s.mem) (h2 : t.host = s.host) (h3 : t.faces = s.faces)
    (h4 : t.flash.repairs = s.flash.repairs) (h5 : t.fab.ports = s.fab.ports) : t.wf = s.wf := by
  simp [State.wf, h1, h2, h3, h4, h5]

@[simp] theorem State.updFace_wf (s : State) (f : FaceId) (g : Face → Face) : (s.updFace f g).wf = s.wf := by simp [State.wf]
@[simp] theorem State.updUnits_wf (s : State) (f : FaceId) (g : FaceUnits → FaceUnits) : (s.updUnits f g).wf = s.wf := by
  simp [State.updUnits]
@[simp] theorem State.count_wf (s : State) (f : FaceId) (t : Totals) : (s.count f t).wf = s.wf := by simp [State.count]
@[simp] theorem State.emit_wf (s : State) (e : OutEvent) : (s.emit e).wf = s.wf := rfl
@[simp] theorem State.updQueue_wf (s : State) (q : QueueId) (g : Queue → Queue) : (s.updQueue q g).wf = s.wf := by simp [State.wf]
@[simp] theorem State.updPort_wf (s : State) (p : PortId) (g : Port → Port) : (s.updPort p g).wf = s.wf := by simp [State.wf]

theorem State.trace_wf (s : State) (e c : Nat) (d : List Nat) (h : s.wf = true) : (s.trace e c d).wf = true := by
  rw [State.wf_iff] at *
  refine ⟨?_, by simpa using h.2⟩
  unfold State.trace
  split
  · exact Mem.writeBytes_wf _ _ _ _ h.1
  · exact h.1

@[simp] theorem State.post_wf (s : State) (k : Packet) : (s.post k).wf = s.wf := by simp [State.wf]
@[simp] theorem State.toPit_wf (s : State) (b : Byte) (l : Option Load) : (s.toPit b l).wf = s.wf := by simp [State.wf]
@[simp] theorem State.toTwin_wf (s : State) (b : Byte) (l : Load) : (s.toTwin b l).wf = s.wf := by simp [State.wf]
@[simp] theorem State.schedHalt_wf (s : State) (t : Nat) (c : BitVec 4) (r : Bool) : (s.schedHalt t c r).wf = s.wf := by simp [State.wf]
@[simp] theorem State.localHalt_wf (s : State) (c : BitVec 4) : (s.localHalt c).wf = s.wf := by simp [State.wf]
@[simp] theorem State.sendHaltNotice_wf (s : State) (n : HaltNotice) : (s.sendHaltNotice n).wf = s.wf := by simp [State.wf]
@[simp] theorem State.noticeHalt_wf (s : State) (c : BitVec 4) (r : Bool) : (s.noticeHalt c r).wf = s.wf := by simp [State.wf]
@[simp] theorem State.raise_wf (s : State) (c : Nat) (u : EUnit) (a : Nat) (d : List Byte) : (s.raise c u a d).wf = s.wf := by
  simp [State.wf]

theorem State.noteReads_cells (s : State) (u : EUnit) (rs : List (Nat × Nat)) : (s.noteReads u rs).mem.cells = s.mem.cells := by
  unfold State.noteReads
  simp [countStacks_cells]

@[simp] theorem State.noteReads_wf (s : State) (u : EUnit) (rs : List (Nat × Nat)) : (s.noteReads u rs).wf = s.wf := by
  simp [State.wf, Memory.wf, State.noteReads_cells]

theorem State.freeFill_wf (s : State) (a n : Nat) (h : s.wf = true) : (s.freeFill a n).wf = true := by
  rw [State.wf_iff] at *
  exact ⟨Mem.writeBytes_wf _ _ _ _ h.1, h.2⟩

@[simp] theorem State.foldWords_wf (s : State) (f : FaceId) (x : Bool) (l : List Nat) : (s.foldWords f x l).wf = s.wf := by
  unfold State.foldWords; split <;> simp

theorem State.spWrite_wf (s : State) (f : FaceId) (ws : List BitWrite) (h : s.wf = true) : (s.spWrite f ws).wf = true := by
  unfold State.spWrite
  rw [State.foldWords_wf]
  rw [State.wf_iff] at *
  exact ⟨Mem.write_wf _ _ h.1, h.2⟩

theorem State.spBytes_wf (s : State) (f : FaceId) (o : Nat) (b : List Byte) (h : s.wf = true) : (s.spBytes f o b).wf = true :=
  State.spWrite_wf _ _ _ h

theorem State.cqWrite_wf (s : State) (q : QueueId) (r : Reply) (h : s.wf = true) : (s.cqWrite q r).wf = true := by
  unfold State.cqWrite
  simp only [State.emit_wf, State.updQueue_wf]
  rw [State.wf_iff] at *
  exact ⟨h.1, Cells.write_wf _ _ _ (Cells.write_wf _ _ _ h.2.1), h.2.2⟩

theorem State.deliver_wf (s : State) (r : Reply) (h : s.wf = true) : (s.deliver r).wf = true := by
  unfold State.deliver
  split
  · simp only []
    split
    · rw [State.updQueue_wf]; exact State.trace_wf _ _ _ _ h
    · exact State.cqWrite_wf _ _ _ (State.trace_wf _ _ _ _ h)
  · rw [State.emit_wf]; exact State.trace_wf _ _ _ _ h
  · have h1 := State.trace_wf s 1 0x0003 [64, r.tag.toNat, r.status.code] h
    rw [State.wf_iff] at *
    exact h1

theorem State.replyNow_wf (s : State) (k : CmdKey) (st : Status) (p : List Byte) (h : s.wf = true) : (s.replyNow k st p).wf = true :=
  State.deliver_wf _ _ h

theorem State.finishAt_wf (s : State) (t : Ticket) (c : BitVec 32) (st : Status) (p : List Byte) (h : s.wf = true) :
    (s.finishAt t c st p).wf = true := State.deliver_wf _ _ h

theorem State.finish_wf (s : State) (t : Ticket) (st : Status) (p : List Byte) (h : s.wf = true) : (s.finish t st p).wf = true :=
  State.finishAt_wf _ _ _ _ _ h

@[simp] theorem State.enqueue_wf (s : State) (p : PortId) (o : Bool) (c : BitVec 2) (l : List Flit) : (s.enqueue p o c l).wf = s.wf := by
  simp [State.wf, State.enqueue]

@[simp] theorem State.sendHello_wf (s : State) (p : PortId) : (s.sendHello p).wf = s.wf := by
  unfold State.sendHello; split <;> simp

@[simp] theorem State.sendHellos_wf (s : State) : s.sendHellos.wf = s.wf := by
  unfold State.sendHellos
  generalize allPorts = l
  induction l generalizing s with
  | nil => rfl
  | cons p r ih => rw [List.foldl_cons, ih, State.sendHello_wf]

@[simp] theorem State.helloChange_wf (o s : State) : (State.helloChange o s).wf = s.wf := by
  unfold State.helloChange; split <;> simp

@[simp] theorem State.setDepth_wf (s : State) (d : Nat) : (s.setDepth d).wf = s.wf := by
  unfold State.setDepth; simp only []; split
  · rw [State.raise_wf]; rfl
  · rfl

@[simp] theorem State.reparent_wf (s : State) : s.reparent.wf = s.wf := by
  unfold State.reparent
  repeat' split
  all_goals first | rfl | (rw [State.setDepth_wf]; rfl)

theorem State.setLink_wf (s : State) (p : PortId) (x : LinkSt) (h : s.wf = true) : (s.setLink p x).wf = true := by
  unfold State.setLink
  simp only []
  split
  · exact h
  · rw [State.helloChange_wf, State.reparent_wf]
    apply State.trace_wf
    rw [State.updPort_wf]
    split
    · exact h
    · exact h

@[simp] theorem State.linkRecord_wf (s : State) (p : PortId) (a b : LinkSt) : (s.linkRecord p a b).wf = s.wf := by
  simp [State.linkRecord]

end Sys2Proof.Machine
end

