-- ==== Sys2Proof/Laws/Links.lean ====
section
/-! SUPPORT. The Haul ports under the shared operations of the fabric: a hello only queues flits, the choice of a parent leaves every
port alone, and a change of a link's state sets that state and raises nothing fatal. -/

namespace Sys2Proof.Machine

/-- Port `q` differs at most in the flits that wait in its queues. -/
def State.samePort (s t : State) (q : PortId) : Prop :=
  t.port q = { s.port q with q0 := (t.port q).q0, own0 := (t.port q).own0, q1 := (t.port q).q1, q2 := (t.port q).q2
                             q3 := (t.port q).q3, sentC0 := (t.port q).sentC0 }

theorem State.samePort_refl (s : State) (q : PortId) : s.samePort s q := rfl

theorem State.samePort_trans {s t u : State} {q : PortId} (h : s.samePort t q) (k : t.samePort u q) : s.samePort u q := by
  unfold State.samePort at *; rw [k, h]

theorem Port.enqueue_same (x : Port) (own : Bool) (c : BitVec 2) (l : List Flit) :
    x.enqueue own c l = { x with q0 := (x.enqueue own c l).q0, own0 := (x.enqueue own c l).own0, q1 := (x.enqueue own c l).q1
                                 q2 := (x.enqueue own c l).q2, q3 := (x.enqueue own c l).q3, sentC0 := (x.enqueue own c l).sentC0 } := by
  unfold Port.enqueue; (repeat' split) <;> rfl

theorem State.updPort_same (s : State) (p q : PortId) (g : Port → Port)
    (h : ∀ x, g x = { x with q0 := (g x).q0, own0 := (g x).own0, q1 := (g x).q1, q2 := (g x).q2, q3 := (g x).q3, sentC0 := (g x).sentC0 }) :
    s.samePort (s.updPort p g) q := by
  unfold State.samePort
  by_cases e : p = q
  · subst e
    by_cases l : p.val < s.fab.ports.length
    · rw [State.updPort_port _ _ _ l]; exact h _
    · have : (s.updPort p g).port p = s.port p := by
        simp only [State.port, State.updPort_ports, lmod_getD, l, and_false, if_false]
      rw [this]
  · rw [State.updPort_port_ne _ _ _ _ e]

theorem State.enqueue_same (s : State) (p q : PortId) (own : Bool) (c : BitVec 2) (l : List Flit) :
    s.samePort (s.enqueue p own c l) q :=
  s.updPort_same p q _ fun x => x.enqueue_same own c l

theorem State.sendHello_same (s : State) (p q : PortId) : s.samePort (s.sendHello p) q := by
  unfold State.sendHello; split
  · exact s.enqueue_same ..
  · exact s.samePort_refl q

theorem State.foldl_same (g : State → PortId → State) (q : PortId) (h : ∀ (s : State) (p : PortId), s.samePort (g s p) q) (l : List PortId) (s : State) :
    s.samePort (l.foldl g s) q := by
  induction l generalizing s with
  | nil => exact s.samePort_refl q
  | cons a r ih => exact State.samePort_trans (h s a) (ih _)

/-- A hello that is sent again leaves every port as `new` has it, but for queued flits. -/
theorem State.helloChange_same (old new : State) (q : PortId) : new.samePort (old.helloChange new) q := by
  unfold State.helloChange; split
  · exact new.samePort_refl q
  · exact State.foldl_same _ q (fun s p => s.sendHello_same p q) _ _

@[simp] theorem State.setDepth_ports (s : State) (d : Nat) : (s.setDepth d).fab.ports = s.fab.ports := by
  unfold State.setDepth; simp only []; split <;> simp

@[simp] theorem State.reparent_ports (s : State) : s.reparent.fab.ports = s.fab.ports := by
  unfold State.reparent; (repeat' split) <;> simp

@[simp] theorem State.reparent_port (s : State) (q : PortId) : s.reparent.port q = s.port q := by simp [State.port]

@[simp] theorem State.raise_port (s : State) (c : Nat) (u : EUnit) (a : Nat) (d : List Byte) (q : PortId) :
    (s.raise c u a d).port q = s.port q := by simp [State.port]

theorem Port.enter_state (x : Port) (st : LinkSt) : (x.enter st).state = st := by
  simp [Port.enter]

theorem Port.enter_keeps (x : Port) (st : LinkSt) : (x.enter st).downs = x.downs ∧ (x.enter st).nbrFaddr = x.nbrFaddr
    ∧ (x.enter st).nbrPort = x.nbrPort ∧ (x.enter st).retry = x.retry := by
  unfold Port.enter; simp only []; (repeat' split) <;> exact ⟨rfl, rfl, rfl, rfl⟩

/-- A traced step leaves every port alone. -/
@[simp] theorem State.trace_port (s : State) (e c : Nat) (d : List Nat) (q : PortId) : (s.trace e c d).port q = s.port q := by
  simp [State.port]

/-- A link's state is what it is set to, and its counters stay. -/
theorem State.setLink_port (s : State) (p : PortId) (st : LinkSt) (h : p.val < s.fab.ports.length) :
    ((s.setLink p st).port p).state = st ∧ ((s.setLink p st).port p).downs = (s.port p).downs := by
  unfold State.setLink
  simp only []
  split
  · exact ⟨by assumption, rfl⟩
  · rw [State.helloChange_same, State.reparent_port, State.trace_port]
    split
    · rw [State.updPort_port _ _ _ (by exact h)]
      exact ⟨Port.enter_state (s.port p) st, (Port.enter_keeps (s.port p) st).1⟩
    · rw [State.updPort_port _ _ _ h]
      exact ⟨Port.enter_state (s.port p) st, (Port.enter_keeps (s.port p) st).1⟩

end Sys2Proof.Machine
end

