-- ==== Sys2Proof/Laws/PerInstr.lean ====
section
/-! SUPPORT. Per command: which rows are instructions of a Face program, when such an instruction has its effect, and that no other row
stores as one or breaks a rule of PROG_VERIFY. -/

namespace Sys2Proof.Laws.FaceRow

open Sys2Proof.Machine

/-- An instruction of a Face program goes exactly where it breaks no rule, its Face issues and everything it reads has come; any other command has no destinations and
breaks no rule. -/
def Statement (i : Instr) : Prop :=
  match dataFace i with
  | some f => ∀ s : State, goes s i = true ↔ brokenRule s i = none ∧ s.issues f = true ∧ s.missing f (readRanges f i) = none
  | none => storesTo i = [] ∧ ∀ s : State, brokenRule s i = none ∧ goes s i = false

theorem of_some (i : Instr) (f : FaceId) (h : dataFace i = some f) : Statement i := by
  simp [Statement, goes, h]

theorem of_none (i : Instr) (h : dataFace i = none) (k : storesTo i = []) (r : ∀ s : State, brokenRule s i = none) : Statement i := by
  simp [Statement, goes, h, k, r]

theorem cfgRead : ∀ x0, Statement (.cfgRead x0) := fun _ => of_none _ rfl rfl fun _ => rfl
theorem cfgStage : ∀ x0, Statement (.cfgStage x0) := fun _ => of_none _ rfl rfl fun _ => rfl
theorem cfgCommit : ∀ x0, Statement (.cfgCommit x0) := fun _ => of_none _ rfl rfl fun _ => rfl
theorem progLoad : ∀ x0, Statement (.progLoad x0) := fun _ => of_none _ rfl rfl fun _ => rfl
theorem progVerify : ∀ x0, Statement (.progVerify x0) := fun _ => of_none _ rfl rfl fun _ => rfl
theorem launch : ∀ x0, Statement (.launch x0) := fun _ => of_none _ rfl rfl fun _ => rfl
theorem haltAt : ∀ x0, Statement (.haltAt x0) := fun _ => of_none _ rfl rfl fun _ => rfl
theorem lastFaceStopped : Statement (.lastFaceStopped) := of_none _ rfl rfl fun _ => rfl
theorem epochBegin : ∀ x0, Statement (.epochBegin x0) := fun _ => of_none _ rfl rfl fun _ => rfl
theorem epochClockLock : Statement (.epochClockLock) := of_none _ rfl rfl fun _ => rfl
theorem streamOpen : ∀ x0, Statement (.streamOpen x0) := fun _ => of_none _ rfl rfl fun _ => rfl
theorem streamChunk : ∀ x0, Statement (.streamChunk x0) := fun _ => of_none _ rfl rfl fun _ => rfl
theorem streamPause : ∀ x0, Statement (.streamPause x0) := fun _ => of_none _ rfl rfl fun _ => rfl
theorem streamResume : ∀ x0, Statement (.streamResume x0) := fun _ => of_none _ rfl rfl fun _ => rfl
theorem streamExport : ∀ x0, Statement (.streamExport x0) := fun _ => of_none _ rfl rfl fun _ => rfl
theorem exportSnapshot : ∀ x0, Statement (.exportSnapshot x0) := fun _ => of_none _ rfl rfl fun _ => rfl
theorem exportWriteDone : ∀ x0 x1, Statement (.exportWriteDone x0 x1) := fun _ _ => of_none _ rfl rfl fun _ => rfl
theorem streamImport : ∀ x0, Statement (.streamImport x0) := fun _ => of_none _ rfl rfl fun _ => rfl
theorem streamClose : ∀ x0, Statement (.streamClose x0) := fun _ => of_none _ rfl rfl fun _ => rfl
theorem streamQuery : ∀ x0, Statement (.streamQuery x0) := fun _ => of_none _ rfl rfl fun _ => rfl
theorem chunkComplete : ∀ x0 x1 x2, Statement (.chunkComplete x0 x1 x2) := fun _ _ _ => of_none _ rfl rfl fun _ => rfl
theorem streamRecordLanding : ∀ x0 x1 x2 x3 x4, Statement (.streamRecordLanding x0 x1 x2 x3 x4) := fun _ _ _ _ _ => of_none _ rfl rfl fun _ => rfl
theorem collBucketDef : ∀ x0, Statement (.collBucketDef x0) := fun _ => of_none _ rfl rfl fun _ => rfl
theorem collArm : ∀ x0, Statement (.collArm x0) := fun _ => of_none _ rfl rfl fun _ => rfl
theorem collQuery : ∀ x0, Statement (.collQuery x0) := fun _ => of_none _ rfl rfl fun _ => rfl
theorem addingHop : ∀ x0 x1, Statement (.addingHop x0 x1) := fun _ _ => of_none _ rfl rfl fun _ => rfl
theorem collPassEnd : ∀ x0, Statement (.collPassEnd x0) := fun _ => of_none _ rfl rfl fun _ => rfl
theorem collStepTimeout : ∀ x0, Statement (.collStepTimeout x0) := fun _ => of_none _ rfl rfl fun _ => rfl
theorem tableLoad : ∀ x0, Statement (.tableLoad x0) := fun _ => of_none _ rfl rfl fun _ => rfl
theorem tableLoadDone : ∀ x0 x1, Statement (.tableLoadDone x0 x1) := fun _ _ => of_none _ rfl rfl fun _ => rfl
theorem tableSwap : ∀ x0, Statement (.tableSwap x0) := fun _ => of_none _ rfl rfl fun _ => rfl
theorem tableQuery : ∀ x0, Statement (.tableQuery x0) := fun _ => of_none _ rfl rfl fun _ => rfl
theorem memCopy : ∀ x0, Statement (.memCopy x0) := fun _ => of_none _ rfl rfl fun _ => rfl
theorem memFill : ∀ x0, Statement (.memFill x0) := fun _ => of_none _ rfl rfl fun _ => rfl
theorem memScrub : ∀ x0, Statement (.memScrub x0) := fun _ => of_none _ rfl rfl fun _ => rfl
theorem memCommandDone : ∀ x0, Statement (.memCommandDone x0) := fun _ => of_none _ rfl rfl fun _ => rfl
theorem memRetire : ∀ x0, Statement (.memRetire x0) := fun _ => of_none _ rfl rfl fun _ => rfl
theorem hbmZeroingDone : Statement (.hbmZeroingDone) := of_none _ rfl rfl fun _ => rfl
theorem readyQuery : ∀ x0, Statement (.readyQuery x0) := fun _ => of_none _ rfl rfl fun _ => rfl
theorem bistRun : ∀ x0, Statement (.bistRun x0) := fun _ => of_none _ rfl rfl fun _ => rfl
theorem bistDone : ∀ x0 x1, Statement (.bistDone x0 x1) := fun _ _ => of_none _ rfl rfl fun _ => rfl
theorem faceRetire : ∀ x0, Statement (.faceRetire x0) := fun _ => of_none _ rfl rfl fun _ => rfl
theorem fwPiece : ∀ x0, Statement (.fwPiece x0) := fun _ => of_none _ rfl rfl fun _ => rfl
theorem fwStatus : ∀ x0, Statement (.fwStatus x0) := fun _ => of_none _ rfl rfl fun _ => rfl
theorem fwConfirm : ∀ x0, Statement (.fwConfirm x0) := fun _ => of_none _ rfl rfl fun _ => rfl
theorem fwRelayEnable : ∀ x0, Statement (.fwRelayEnable x0) := fun _ => of_none _ rfl rfl fun _ => rfl
theorem twinPair : ∀ x0, Statement (.twinPair x0) := fun _ => of_none _ rfl rfl fun _ => rfl
theorem twinUnpair : ∀ x0, Statement (.twinUnpair x0) := fun _ => of_none _ rfl rfl fun _ => rfl
theorem errRead : ∀ x0, Statement (.errRead x0) := fun _ => of_none _ rfl rfl fun _ => rfl
theorem errAck : ∀ x0, Statement (.errAck x0) := fun _ => of_none _ rfl rfl fun _ => rfl
theorem pitCreate : ∀ x0, Statement (.pitCreate x0) := fun _ => of_none _ rfl rfl fun _ => rfl
theorem pitDestroy : ∀ x0, Statement (.pitDestroy x0) := fun _ => of_none _ rfl rfl fun _ => rfl
theorem pitScrubDone : ∀ x0, Statement (.pitScrubDone x0) := fun _ => of_none _ rfl rfl fun _ => rfl
theorem routeEpoch : ∀ x0, Statement (.routeEpoch x0) := fun _ => of_none _ rfl rfl fun _ => rfl
theorem tickBoundary : Statement (.tickBoundary) := of_none _ rfl rfl fun _ => rfl
theorem faceProgramEnd : ∀ x0 x1, Statement (.faceProgramEnd x0 x1) := fun _ _ => of_none _ rfl rfl fun _ => rfl
theorem faceSlipLimit : ∀ x0, Statement (.faceSlipLimit x0) := fun _ => of_none _ rfl rfl fun _ => rfl
theorem faceStallEnd : ∀ x0, Statement (.faceStallEnd x0) := fun _ => of_none _ rfl rfl fun _ => rfl
theorem odcPitUpdate : ∀ x0, Statement (.odcPitUpdate x0) := fun _ => of_none _ rfl rfl fun _ => rfl
theorem benchForwardRead : ∀ x0 x1, Statement (.benchForwardRead x0 x1) := fun _ _ => of_some _ _ rfl
theorem benchTransposedRead : ∀ x0 x1, Statement (.benchTransposedRead x0 x1) := fun _ _ => of_some _ _ rfl
theorem weightLoad : ∀ x0 x1, Statement (.weightLoad x0 x1) := fun _ _ => of_some _ _ rfl
theorem weightSwap : ∀ x0, Statement (.weightSwap x0) := fun _ => of_some _ _ rfl
theorem drain : ∀ x0 x1, Statement (.drain x0 x1) := fun _ _ => of_some _ _ rfl
theorem finishedTileQueued : ∀ x0, Statement (.finishedTileQueued x0) := fun _ => of_some _ _ rfl
theorem keeperMac : ∀ x0 x1, Statement (.keeperMac x0 x1) := fun _ _ => of_some _ _ rfl
theorem add : ∀ x0 x1, Statement (.add x0 x1) := fun _ _ => of_some _ _ rfl
theorem sub : ∀ x0 x1, Statement (.sub x0 x1) := fun _ _ => of_some _ _ rfl
theorem mul : ∀ x0 x1, Statement (.mul x0 x1) := fun _ _ => of_some _ _ rfl
theorem muladd : ∀ x0 x1, Statement (.muladd x0 x1) := fun _ _ => of_some _ _ rfl
theorem max : ∀ x0 x1, Statement (.max x0 x1) := fun _ _ => of_some _ _ rfl
theorem min : ∀ x0 x1, Statement (.min x0 x1) := fun _ _ => of_some _ _ rfl
theorem abs : ∀ x0 x1, Statement (.abs x0 x1) := fun _ _ => of_some _ _ rfl
theorem neg : ∀ x0 x1, Statement (.neg x0 x1) := fun _ _ => of_some _ _ rfl
theorem cmpEq : ∀ x0 x1, Statement (.cmpEq x0 x1) := fun _ _ => of_some _ _ rfl
theorem cmpLt : ∀ x0 x1, Statement (.cmpLt x0 x1) := fun _ _ => of_some _ _ rfl
theorem cmpLe : ∀ x0 x1, Statement (.cmpLe x0 x1) := fun _ _ => of_some _ _ rfl
theorem select : ∀ x0 x1, Statement (.select x0 x1) := fun _ _ => of_some _ _ rfl
theorem div : ∀ x0 x1, Statement (.div x0 x1) := fun _ _ => of_some _ _ rfl
theorem sqrt : ∀ x0 x1, Statement (.sqrt x0 x1) := fun _ _ => of_some _ _ rfl
theorem convert : ∀ x0 x1, Statement (.convert x0 x1) := fun _ _ => of_some _ _ rfl
theorem quant : ∀ x0 x1, Statement (.quant x0 x1) := fun _ _ => of_some _ _ rfl
theorem intFinish : ∀ x0 x1, Statement (.intFinish x0 x1) := fun _ _ => of_some _ _ rfl
theorem sum : ∀ x0 x1, Statement (.sum x0 x1) := fun _ _ => of_some _ _ rfl
theorem maxr : ∀ x0 x1, Statement (.maxr x0 x1) := fun _ _ => of_some _ _ rfl
theorem minr : ∀ x0 x1, Statement (.minr x0 x1) := fun _ _ => of_some _ _ rfl
theorem compress : ∀ x0 x1, Statement (.compress x0 x1) := fun _ _ => of_some _ _ rfl
theorem expand : ∀ x0 x1, Statement (.expand x0 x1) := fun _ _ => of_some _ _ rfl
theorem qadd : ∀ x0 x1, Statement (.qadd x0 x1) := fun _ _ => of_some _ _ rfl
theorem tswTest : ∀ x0 x1, Statement (.tswTest x0 x1) := fun _ _ => of_some _ _ rfl
theorem spallClear : ∀ x0 x1, Statement (.spallClear x0 x1) := fun _ _ => of_some _ _ rfl
theorem fnExp2 : ∀ x0 x1, Statement (.fnExp2 x0 x1) := fun _ _ => of_some _ _ rfl
theorem fnLog2 : ∀ x0 x1, Statement (.fnLog2 x0 x1) := fun _ _ => of_some _ _ rfl
theorem fnTab : ∀ x0 x1 x2, Statement (.fnTab x0 x1 x2) := fun _ _ _ => of_some _ _ rfl
theorem fnGate : ∀ x0 x1, Statement (.fnGate x0 x1) := fun _ _ => of_some _ _ rfl
theorem smax1 : ∀ x0 x1, Statement (.smax1 x0 x1) := fun _ _ => of_some _ _ rfl
theorem smax2 : ∀ x0 x1, Statement (.smax2 x0 x1) := fun _ _ => of_some _ _ rfl
theorem normStats : ∀ x0 x1, Statement (.normStats x0 x1) := fun _ _ => of_some _ _ rfl
theorem normApply : ∀ x0 x1, Statement (.normApply x0 x1) := fun _ _ => of_some _ _ rfl
theorem normGrad1 : ∀ x0 x1, Statement (.normGrad1 x0 x1) := fun _ _ => of_some _ _ rfl
theorem normGrad2 : ∀ x0 x1, Statement (.normGrad2 x0 x1) := fun _ _ => of_some _ _ rfl
theorem smaxGrad1 : ∀ x0 x1, Statement (.smaxGrad1 x0 x1) := fun _ _ => of_some _ _ rfl
theorem smaxGrad2 : ∀ x0 x1, Statement (.smaxGrad2 x0 x1) := fun _ _ => of_some _ _ rfl
theorem gsScan : ∀ x0 x1, Statement (.gsScan x0 x1) := fun _ _ => of_some _ _ rfl
theorem collFill : ∀ x0 x1, Statement (.collFill x0 x1) := fun _ _ => of_none _ rfl rfl fun _ => rfl
theorem fabricSend : ∀ x0 x1, Statement (.fabricSend x0 x1) := fun _ _ => of_some _ _ rfl
theorem atomicAdd : ∀ x0 x1, Statement (.atomicAdd x0 x1) := fun _ _ => of_some _ _ rfl
theorem moverTransfer : ∀ x0 x1, Statement (.moverTransfer x0 x1) := fun _ _ => of_some _ _ rfl
theorem addContribution : ∀ x0, Statement (.addContribution x0) := fun _ => of_none _ rfl rfl fun _ => rfl
theorem addGroupComplete : ∀ x0, Statement (.addGroupComplete x0) := fun _ => of_none _ rfl rfl fun _ => rfl
theorem refreshSlot : ∀ x0, Statement (.refreshSlot x0) := fun _ => of_none _ rfl rfl fun _ => rfl
theorem patrolScrub : ∀ x0, Statement (.patrolScrub x0) := fun _ => of_none _ rfl rfl fun _ => rfl
theorem stackErrorLimit : ∀ x0, Statement (.stackErrorLimit x0) := fun _ => of_none _ rfl rfl fun _ => rfl
theorem flitReceive : ∀ x0 x1 x2, Statement (.flitReceive x0 x1 x2) := fun _ _ _ => of_none _ rfl rfl fun _ => rfl
theorem linkFail : ∀ x0 x1, Statement (.linkFail x0 x1) := fun _ _ => of_none _ rfl rfl fun _ => rfl
theorem linkRetrainTimer : ∀ x0, Statement (.linkRetrainTimer x0) := fun _ => of_none _ rfl rfl fun _ => rfl
theorem linkSignalDetect : ∀ x0, Statement (.linkSignalDetect x0) := fun _ => of_none _ rfl rfl fun _ => rfl
theorem linkSignalLoss : ∀ x0, Statement (.linkSignalLoss x0) := fun _ => of_none _ rfl rfl fun _ => rfl
theorem linkTrained : ∀ x0, Statement (.linkTrained x0) := fun _ => of_none _ rfl rfl fun _ => rfl
theorem helloTimer : ∀ x0, Statement (.helloTimer x0) := fun _ => of_none _ rfl rfl fun _ => rfl
theorem hello : ∀ x0 x1, Statement (.hello x0 x1) := fun _ _ => of_none _ rfl rfl fun _ => rfl
theorem packetRoute : ∀ x0 x1, Statement (.packetRoute x0 x1) := fun _ _ => of_none _ rfl rfl fun _ => rfl
theorem landingWrite : ∀ x0, Statement (.landingWrite x0) := fun _ => of_none _ rfl rfl fun _ => rfl
theorem commandPacket : ∀ x0, Statement (.commandPacket x0) := fun _ => of_none _ rfl rfl fun _ => rfl
theorem replyPacket : ∀ x0, Statement (.replyPacket x0) := fun _ => of_none _ rfl rfl fun _ => rfl
theorem collectiveSegment : ∀ x0, Statement (.collectiveSegment x0) := fun _ => of_none _ rfl rfl fun _ => rfl
theorem haltNotice : ∀ x0, Statement (.haltNotice x0) := fun _ => of_none _ rfl rfl fun _ => rfl
theorem extensionAnnouncement : ∀ x0, Statement (.extensionAnnouncement x0) := fun _ => of_none _ rfl rfl fun _ => rfl
theorem twinDigest : ∀ x0, Statement (.twinDigest x0) := fun _ => of_none _ rfl rfl fun _ => rfl
theorem powerEvent : ∀ x0 x1, Statement (.powerEvent x0 x1) := fun _ _ => of_none _ rfl rfl fun _ => rfl
theorem management : ∀ x0 x1, Statement (.management x0 x1) := fun _ _ => of_none _ rfl rfl fun _ => rfl
theorem frameBoundary : ∀ x0, Statement (.frameBoundary x0) := fun _ => of_none _ rfl rfl fun _ => rfl
theorem frameMarker : ∀ x0 x1, Statement (.frameMarker x0 x1) := fun _ _ => of_none _ rfl rfl fun _ => rfl
theorem timebaseLock : Statement (.timebaseLock) := of_none _ rfl rfl fun _ => rfl
theorem errorRecord : Statement (.errorRecord) := of_none _ rfl rfl fun _ => rfl
theorem faceCheckerFault : ∀ x0 x1, Statement (.faceCheckerFault x0 x1) := fun _ _ => of_none _ rfl rfl fun _ => rfl
theorem weighbridgeBoot : ∀ x0, Statement (.weighbridgeBoot x0) := fun _ => of_none _ rfl rfl fun _ => rfl
theorem mainEnable : ∀ x0 x1 x2, Statement (.mainEnable x0 x1 x2) := fun _ _ _ => of_none _ rfl rfl fun _ => rfl
theorem mainRampDone : Statement (.mainRampDone) := of_none _ rfl rfl fun _ => rfl
theorem hubStartDone : Statement (.hubStartDone) := of_none _ rfl rfl fun _ => rfl
theorem dieStartDone : Statement (.dieStartDone) := of_none _ rfl rfl fun _ => rfl
theorem powerOnBistDone : ∀ x0, Statement (.powerOnBistDone x0) := fun _ => of_none _ rfl rfl fun _ => rfl
theorem hbmTrainingDone : ∀ x0 x1, Statement (.hbmTrainingDone x0 x1) := fun _ _ => of_none _ rfl rfl fun _ => rfl
theorem perstNRelease : Statement (.perstNRelease) := of_none _ rfl rfl fun _ => rfl
theorem pcieLinkUp : Statement (.pcieLinkUp) := of_none _ rfl rfl fun _ => rfl
theorem bulkLowDetect : ∀ x0, Statement (.bulkLowDetect x0) := fun _ => of_none _ rfl rfl fun _ => rfl
theorem regulatorStop : Statement (.regulatorStop) := of_none _ rfl rfl fun _ => rfl
theorem sagClear : Statement (.sagClear) := of_none _ rfl rfl fun _ => rfl
theorem mainInputRestore : Statement (.mainInputRestore) := of_none _ rfl rfl fun _ => rfl
theorem overcurrent : ∀ x0, Statement (.overcurrent x0) := fun _ => of_none _ rfl rfl fun _ => rfl
theorem highInput : Statement (.highInput) := of_none _ rfl rfl fun _ => rfl
theorem highInputEnd : Statement (.highInputEnd) := of_none _ rfl rfl fun _ => rfl
theorem standbyLow : ∀ x0, Statement (.standbyLow x0) := fun _ => of_none _ rfl rfl fun _ => rfl
theorem standbyLowStopTimer : Statement (.standbyLowStopTimer) := of_none _ rfl rfl fun _ => rfl
theorem mainPowerLoss : Statement (.mainPowerLoss) := of_none _ rfl rfl fun _ => rfl
theorem sensorPoll : ∀ x0, Statement (.sensorPoll x0) := fun _ => of_none _ rfl rfl fun _ => rfl
theorem thermalHaltPersist : ∀ x0 x1, Statement (.thermalHaltPersist x0 x1) := fun _ _ => of_none _ rfl rfl fun _ => rfl
theorem thermalStopTimer : Statement (.thermalStopTimer) := of_none _ rfl rfl fun _ => rfl
theorem leakDetect : ∀ x0, Statement (.leakDetect x0) := fun _ => of_none _ rfl rfl fun _ => rfl
theorem leakStopTimer : Statement (.leakStopTimer) := of_none _ rfl rfl fun _ => rfl
theorem leakClearTimer : Statement (.leakClearTimer) := of_none _ rfl rfl fun _ => rfl
theorem mgmtDatagram : ∀ x0 x1, Statement (.mgmtDatagram x0 x1) := fun _ _ => of_none _ rfl rfl fun _ => rfl
theorem fwDatagram : ∀ x0, Statement (.fwDatagram x0) := fun _ => of_none _ rfl rfl fun _ => rfl
theorem fwRelayPiece : ∀ x0, Statement (.fwRelayPiece x0) := fun _ => of_none _ rfl rfl fun _ => rfl
theorem opMinTick : Statement (.opMinTick) := of_none _ rfl rfl fun _ => rfl
theorem enumerationTrain : ∀ x0, Statement (.enumerationTrain x0) := fun _ => of_none _ rfl rfl fun _ => rfl
theorem chainEnumTimeout : Statement (.chainEnumTimeout) := of_none _ rfl rfl fun _ => rfl
theorem sqDoorbell : ∀ x0 x1, Statement (.sqDoorbell x0 x1) := fun _ _ => of_none _ rfl rfl fun _ => rfl
theorem cqDoorbell : ∀ x0 x1, Statement (.cqDoorbell x0 x1) := fun _ _ => of_none _ rfl rfl fun _ => rfl
theorem queueEnable : ∀ x0 x1, Statement (.queueEnable x0 x1) := fun _ _ => of_none _ rfl rfl fun _ => rfl
theorem csrWrite : ∀ x0 x1 x2 x3, Statement (.csrWrite x0 x1 x2 x3) := fun _ _ _ _ => of_none _ rfl rfl fun _ => rfl
theorem bar4Access : ∀ x0 x1, Statement (.bar4Access x0 x1) := fun _ _ => of_none _ rfl rfl fun _ => rfl
theorem convCntCtlClear : Statement (.convCntCtlClear) := of_none _ rfl rfl fun _ => rfl
theorem spallCntCtlClear : Statement (.spallCntCtlClear) := of_none _ rfl rfl fun _ => rfl
theorem fnCntCtlClear : Statement (.fnCntCtlClear) := of_none _ rfl rfl fun _ => rfl
theorem slackClear : Statement (.slackClear) := of_none _ rfl rfl fun _ => rfl
theorem tickEv : ∀ x0, Statement (.tickEv x0) := fun _ => of_none _ rfl rfl fun _ => rfl
theorem cmdEv : ∀ x0, Statement (.cmdEv x0) := fun _ => of_none _ rfl rfl fun _ => rfl
theorem fabEv : ∀ x0, Statement (.fabEv x0) := fun _ => of_none _ rfl rfl fun _ => rfl
theorem errEv : ∀ x0, Statement (.errEv x0) := fun _ => of_none _ rfl rfl fun _ => rfl
theorem standbyPowerLoss : Statement (.standbyPowerLoss) := of_none _ rfl rfl fun _ => rfl
theorem pcieLinkDown : Statement (.pcieLinkDown) := of_none _ rfl rfl fun _ => rfl
theorem queuePcieError : ∀ x0, Statement (.queuePcieError x0) := fun _ => of_none _ rfl rfl fun _ => rfl
theorem flitSlot : ∀ x0 x1, Statement (.flitSlot x0 x1) := fun _ _ => of_none _ rfl rfl fun _ => rfl

end Sys2Proof.Laws.FaceRow
end

