-- ==== Sys2Proof/Laws/Waits.lean ====
section
/-! SUPPORT. What issuing an instruction of a Face can do, and that the landing view of an earlier tick keeps memory's canonical form. -/

namespace Sys2Proof.Machine

/-! ### Issue -/

/-- An issued instruction is refused by the rule it breaks, has no effect, stalls its Face, or has its effect on the Face's view. -/
theorem issue_cases (s : State) (f : FaceId) (i : Instr) (broken : Option Nat) (effect : State → State) :
    (∃ r, broken = some r ∧ issue s f i broken effect = .refused (.programRefused r))
    ∨ (broken = none ∧ s.issues f = false ∧ issue s f i broken effect = .next s)
    ∨ (∃ c, broken = none ∧ s.issues f = true ∧ s.missing f (readRanges f i) = some c
      ∧ issue s f i broken effect = .next (s.updFace f fun x => { x with stall := some c, held := [i] }))
    ∨ (broken = none ∧ s.issues f = true ∧ s.missing f (readRanges f i) = none
      ∧ issue s f i broken effect = .next (s.atView f effect)) := by
  cases broken with
  | some r => exact .inl ⟨r, rfl, rfl⟩
  | none =>
    cases h : s.issues f with
    | false => exact .inr (.inl ⟨rfl, rfl, by simp [issue, h]⟩)
    | true =>
      cases hm : s.missing f (readRanges f i) with
      | some c => exact .inr (.inr (.inl ⟨c, rfl, rfl, rfl, by simp [issue, h, State.run, hm]⟩))
      | none => exact .inr (.inr (.inr ⟨rfl, rfl, rfl, by simp [issue, h, State.run, hm]⟩))

/-! ### Views -/

@[simp] theorem State.view_of_slip_zero (s : State) (f : FaceId) (h : (s.face f).slip = 0) : s.view f = s := by
  simp [State.view, h]

@[simp] theorem State.atView_of_slip_zero (s : State) (f : FaceId) (effect : State → State) (h : (s.face f).slip = 0) :
    s.atView f effect = effect s := by simp [State.atView, h]

/-- A slipped Face's effect runs on its view, and only memory is different afterwards from what the effect left. -/
theorem State.atView_of_slip (s : State) (f : FaceId) (effect : State → State) (h : (s.face f).slip ≠ 0) :
    ∃ m, s.atView f effect = { effect (s.view f) with mem := m } := by
  simp only [State.atView, if_neg h]
  exact ⟨_, rfl⟩

theorem Cells.foldl_write_wf (l : List (Nat × Byte)) (c : Cells) (h : swf (0 : Byte) c = true) :
    swf (0 : Byte) (l.foldl (fun c p => Cells.write c p.1 [p.2]) c) = true := by
  induction l generalizing c with
  | nil => exact h
  | cons p r ih => exact ih _ (Cells.write_wf _ _ _ h)

theorem Mem.putBytes_wf (m : Mem) (l : List (Nat × Byte)) (h : Memory.wf m = true) : Memory.wf (m.putBytes l) = true :=
  Cells.foldl_write_wf _ _ h

@[simp] theorem Mem.setPoison_cells (m : Mem) (gs : List Nat) (on : Nat → Bool) : (m.setPoison gs on).cells = m.cells := rfl
@[simp] theorem Mem.setPoison_wf (m : Mem) (gs : List Nat) (on : Nat → Bool) : Memory.wf (m.setPoison gs on) = Memory.wf m := rfl

theorem Landed.lift_wf (l : Landed) (m : Mem) (h : Memory.wf m = true) : Memory.wf (l.lift m) = true := by
  simp only [Landed.lift, Mem.setPoison_wf]
  exact Mem.putBytes_wf _ _ h

theorem Landed.lay_wf (l : Landed) (m0 : Mem) (is : List Nat) (m : Mem) (h : Memory.wf m = true) : Memory.wf (l.lay m0 is m) = true :=
  Cells.foldl_write_wf _ _ h

theorem Mem.viewAt_wf (m : Mem) (x : BitVec 64) (h : Memory.wf m = true) : Memory.wf (m.viewAt x).1 = true := by
  suffices H : ∀ (ls : List Landed) (p : Mem × List (Landed × List Nat × Mem)), Memory.wf p.1 = true →
      Memory.wf (ls.foldl (fun p l => (l.lift p.1, (l, l.stands p.1, p.1) :: p.2)) p).1 = true from H _ _ h
  intro ls
  induction ls with
  | nil => exact fun _ h => h
  | cons l r ih => exact fun p h => ih _ (Landed.lift_wf _ _ h)

/-- The view of memory keeps the canonical form. -/
theorem State.view_mem_wf (s : State) (f : FaceId) (h : Memory.wf s.mem = true) : Memory.wf (s.view f).mem = true := by
  unfold State.view
  split
  · exact h
  · exact Mem.viewAt_wf _ _ h

/-- So does an effect on the view that keeps it, with the later messages over it again. -/
theorem State.atView_mem_wf (s : State) (f : FaceId) (effect : State → State) (h : Memory.wf s.mem = true)
    (he : ∀ t : State, Memory.wf t.mem = true → Memory.wf (effect t).mem = true) : Memory.wf (s.atView f effect).mem = true := by
  unfold State.atView
  split
  · exact he _ h
  · simp only []
    generalize (s.mem.viewAt (s.progTick f)).2 = l
    have hm := he _ (State.view_mem_wf s f h)
    generalize (effect (s.view f)).mem = m at hm
    induction l generalizing m with
    | nil => exact hm
    | cons x r ih => exact ih _ (Landed.lay_wf _ _ _ _ hm)

end Sys2Proof.Machine
end

