-- ==== Sys2Proof/WellFormed.lean ====
section
/-! DEFINITION. Which commands are well formed: an instruction of a tick program must pass the operand checks of PROG_VERIFY
(R99 to R131, R179, R252); every other command is well formed as its types make it. -/

namespace Sys2Proof

/-- The operands pass PROG_VERIFY's checks. -/
def Instr.wellFormed (i : Instr) : Bool := (Machine.verify i).isNone

end Sys2Proof
end

