-- ==== Sys2Proof/Tests/Slice0.lean ====
section
/-! SUPPORT. Tests of the model, each a named theorem on one small state: ill-formed operands that the checks refuse, worked values
of the manual, and, for every statement with hypotheses, a state and operands that meet them. -/

namespace Sys2Proof.Tests

open Sys2Proof.Machine

set_option Elab.async false

/-! ### Operands -/

/-- A stream of `n` elements from `base`, each next to the last. -/
def vec (base fmt n : Nat) : Stream :=
  let st := match fmt with
    | 1 | 10 | 11 | 15 => 1
    | 2 | 13 | 14 => 2
    | 4 => 36
    | 5 => 68
    | 7 => 16
    | 8 => 32
    | 9 => 64
    | _ => 4
  ⟨⟨BitVec.ofNat 27 base, BitVec.ofNat 4 fmt, 2, 0, BitVec.ofNat 16 n, 1, 1, 1, BitVec.ofNat 32 st, 0, 0, 0, 0⟩, none⟩

def rd (base fmt n : Nat) : Src := .mem (vec base fmt n)
def wr (base fmt n : Nat) : Dst := ⟨vec base fmt n, none⟩
def enc0 : BpEnc := ⟨false, 0⟩

/-- A KIND 1 spall list of `n` rows from `tbase` (R118). -/
def rowList (tbase pitch n : Nat) : SpallDesc := ⟨0x8000, BitVec.ofNat 27 tbase, BitVec.ofNat 32 n, BitVec.ofNat 32 pitch, 0, true, 2, 0⟩

def v1 (fa fy n : Nat) : Vec1 := ⟨rd 0x1000 fa n, wr 0x4000 fy n, none, enc0, none⟩
def v2 (fa fy n : Nat) : Vec2 := ⟨rd 0x1000 fa n, rd 0x2000 fa n, wr 0x4000 fy n, none, enc0, false, none⟩
def v3 (fa fy n : Nat) : Vec3 := ⟨rd 0x1000 fa n, rd 0x2000 fa n, rd 0x3000 fa n, wr 0x4000 fy n, none, enc0, false, none⟩
def sel0 : SelectOp := ⟨vec 0x3000 15 4, rd 0x1000 2 4, rd 0x2000 2 4, wr 0x4000 2 4, none⟩
def conv0 : ConvertOp := ⟨rd 0x1000 2 4, wr 0x4000 3 4, none, enc0, false, ⟨0, false⟩, none⟩
def rowDst (n : Nat) (l : SpallDesc) : Dst := ⟨⟨{ (vec 0x4000 10 n).desc with spallId := 1 }, some l⟩, none⟩
def quant0 : QuantOp := ⟨rd 0x1000 3 4, rowDst 4 (rowList 0x4000 4 1), 0x5000, false, 0, none, ⟨0, false⟩⟩
def fin0 : IntFinishOp :=
  ⟨rd 0x1000 6 4, 0x6000, 2, 2, 0x5000, rd 0x2000 6 2, vec 0x2100 10 2, vec 0x2200 10 6, 3, 0, none, 0, 0, wr 0x4000 3 4, enc0, ⟨0, false⟩,
    none, none, false⟩
def sum0 : SumOp := ⟨rd 0x1000 2 4, wr 0x4000 3 1, false, none, enc0⟩
def red0 : RedOp := ⟨rd 0x1000 2 4, wr 0x4000 2 1, wr 0x4100 6 1, false, none⟩
def comp0 : CompressOp := ⟨rd 0x1000 2 4, vec 0x3000 15 4, wr 0x4000 2 4, 0x5000, none⟩
def expd0 : ExpandOp := ⟨rd 0x1000 2 4, vec 0x3000 15 4, wr 0x4000 2 4, false, none⟩
def qadd0 : QaddOp := ⟨vec 0x1000 7 2, vec 0x2000 7 2, wr 0x4000 7 2, none, none, none⟩
def tsw0 : TswTestOp := ⟨0x1000, 0x2000⟩
def fn0 : FnOp := ⟨rd 0x1000 2 4, wr 0x4000 2 4, none, none⟩
def gate0 : GateOp := ⟨rd 0x1000 2 4, rd 0x2000 2 4, .exp2, wr 0x4000 2 4, none, none⟩
def sm1 : Smax1Op := ⟨rd 0x1000 2 4, none, 0x5000, none⟩
def sm2 : Smax2Op := ⟨rd 0x1000 2 4, none, 0x5000, wr 0x4000 2 4, enc0, none, none⟩
def ns0 : NormStatsOp := ⟨rd 0x1000 3 4, 0x5000, 0, false, none⟩
def na0 : NormApplyOp := ⟨rd 0x1000 3 4, 0x5000, some (rd 0x2000 3 4), none, wr 0x4000 3 4, enc0, none, none⟩
def ng1 : NormGrad1Op := ⟨rd 0x1000 3 4, rd 0x2000 3 4, rd 0x3000 3 4, none, 0x5000, 0, false, none⟩
def ng2 : NormGrad2Op := ⟨rd 0x1000 3 4, rd 0x2000 3 4, rd 0x3000 3 4, 0x5000, wr 0x4000 3 4, none, none, enc0⟩
def sg1 : SmaxGrad1Op := ⟨rd 0x1000 3 4, rd 0x2000 3 4, none, 0x5000, none⟩
def sg2 : SmaxGrad2Op := ⟨rd 0x1000 3 4, rd 0x2000 3 4, none, 0x5000, 0x40000000, wr 0x4000 3 4, none, enc0⟩
def gs0 : GsScanOp :=
  ⟨vec 0x1000 3 4, vec 0x1100 3 4, vec 0x1200 3 4, vec 0x1300 3 4, wr 0x4000 3 4, 2, 1, 1, 0, 0, true, none, 0, none, 0x5000, 2⟩
def rd0 : BenchRead := ⟨false, .posit16, 0, 0, 0, vec 0x1000 2 8⟩
def wl0 : WeightLoadOp := ⟨.posit16, 0x10000, 0, none⟩
def dr0 : DrainOp :=
  ⟨false, .posit16, false, 0, 2, 2, 2, .none, none, 5, enc0, 0, none, 0, 0, .queue, .zero, .posit16, false, 0, 2, 2⟩
def mv0 : MoveOp := ⟨0x10000, 0x20000, 64⟩

/-- One instruction of a Face program for every row, with operands that PROG_VERIFY allows. -/
def rows1 (f : FaceId) : List Instr :=
  [.benchForwardRead f rd0, .benchTransposedRead f rd0, .weightLoad f wl0, .weightSwap f, .drain f dr0, .finishedTileQueued f,
   .keeperMac f 3, .add f (v2 2 3 4), .sub f (v2 6 6 4), .mul f (v2 4 4 1), .max f (v2 3 1 4), .min f (v2 6 6 4), .div f (v2 2 2 4),
   .cmpEq f (v2 2 15 4), .cmpLt f (v2 2 15 4), .cmpLe f (v2 1 15 4), .muladd f (v3 2 3 4), .abs f (v1 2 2 4), .neg f (v1 6 6 4),
   .sqrt f (v1 3 3 4)]
def rows2 (f : FaceId) : List Instr :=
  [.select f sel0, .convert f conv0, .quant f quant0, .intFinish f fin0, .sum f sum0, .maxr f red0, .minr f red0, .compress f comp0,
   .expand f expd0, .qadd f qadd0, .tswTest f tsw0, .spallClear f ⟨1, (rowList 0x4000 4 1)⟩, .fnExp2 f fn0, .fnLog2 f fn0, .fnTab f 2 fn0,
   .fnGate f gate0, .smax1 f sm1, .smax2 f sm2, .normStats f ns0, .normApply f na0, .normGrad1 f ng1, .normGrad2 f ng2,
   .smaxGrad1 f sg1, .smaxGrad2 f sg2, .gsScan f gs0]

/-! ### The module at work -/

/-- A module of a one-module Pit with its power and Derrick up, its stacks trained and Faces 0 and 95 ready. -/
def up : State :=
  { State.reset with
    pwr := { Power.reset with
      standby := true, weighbridge := true, main := true, hub := true, derrick := true, host := true, dies := 0xFF, trained := 0xFFFF
      perstN := true }
    pit := { Pit.reset with id := 1 }
    tk := { TickRegs.reset with tickCount := 100, notice := 1 }
    mem := { Mem.reset with hbmLive := 0xFFFF }
    host := { HostIf.reset with queues := lmod (fun x => { x with enable := true, sqLog := 4, cqLog := 4 }) HostIf.reset.queues 0 }
    faces := lmod (fun x => { x with state := .ready }) (lmod (fun x => { x with state := .ready }) State.reset.faces 0) 95 }

/-- A loaded program whose spall table holds one list. -/
def prog0 : Prog :=
  { clockPlan := 2, powerCap := 2, bstat := false, hbmMode := false, tickPeriod := 0x28, width := 128, hbmLive := 0xFFFF, srSeed := 0
    loadOff := 0, shape := (0, 0, 0), lifts := [], resv := (0, 0), hbmShare := 0, entries := 1, used := true
    digest := 5, spalls := [rowList 0x4000 4 1], expects := [], groups := [], uses := [] }

/-- A Face with a program, and a weight load behind it. -/
def withProg (p : Prog) (x : Face) : Face := { x with prog := some p, units := { x.units with loaded := true } }

/-- The same module in a run, with a program on the two Faces. -/
def work : State :=
  { up with tk := { up.tk with run := .running }, faces := lmod (withProg prog0) (lmod (withProg prog0) up.faces 0) 95 }

theorem test_work_wf : up.wf = true ∧ work.wf = true := by decide +kernel

theorem test_rows_go_face_0 : ((rows1 0 ++ rows2 0).map (goes work)).all id = true := by decide +kernel
theorem test_rows_go_face_95 : ((rows1 95 ++ rows2 95).map (goes work)).all id = true := by decide +kernel
/-- The same rows on a Face with the program that is OFF: no rule is broken, and nothing issues. -/
theorem test_rows_held_on_a_face_off :
    (let s : State := { work with faces := lmod (withProg prog0) work.faces 1 };
      ((rows1 1 ++ rows2 1).map fun i => s.issues 1 || (brokenRule s i).isSome).all (!·)) = true := by decide +kernel
theorem test_rows_are_well_formed : ((rows1 0 ++ rows2 0).map Instr.wellFormed).all id = true := by decide +kernel

/-! ### Ill-formed operands: each is refused by the rule that it breaks -/

def refuses (l : List (Instr × Nat)) : Bool := l.all fun x => !x.1.wellFormed && verify x.1 == some x.2

def withDesc (st : Stream) (g : StreamDesc → StreamDesc) : Stream := { st with desc := g st.desc }

/-- Stream descriptors, in the place of ADD's first operand (R99 to R101, R117). -/
def badStream (st : Stream) : Instr := .add 0 { v2 2 2 4 with a := .mem st }

theorem test_wf_streams : refuses [
    (badStream (withDesc (vec 0x1000 2 4) fun d => { d with ver := 1 }), 101),
    (badStream (withDesc (vec 0x1000 2 4) fun d => { d with rsvd := 1 }), 5),
    (badStream (withDesc (vec 0x1000 2 4) fun d => { d with fmt := 0 }), 100),
    (badStream (withDesc (vec 0x1000 2 4) fun d => { d with cnt1 := 0 }), 99),
    (badStream (withDesc (vec 0x1000 2 4) fun d => { d with spallId := 3 }), 99),
    (badStream (withDesc (vec 0x1000 2 4) fun d => { d with cnt1 := 65535, cnt2 := 65535 }), 101),
    (badStream (withDesc (vec 0 2 4) fun d => { d with str0 := -2 }), 101),
    (badStream (vec 0x7FFFFFC 2 4), 101), (badStream (vec 0x1001 2 4), 101),
    (badStream (withDesc (vec 0x1000 2 4) fun d => { d with str0 := 3 }), 101)] = true := by decide +kernel

/-- Spall lists, in the place of SPALL_CLEAR's operand, and a BP stream off its list's units (R117, R118). -/
theorem test_wf_spall_lists : refuses [
    (.spallClear 0 ⟨0, (rowList 0x4000 4 1)⟩, 99), (.spallClear 0 ⟨1, { rowList 0x4000 4 1 with ver := 1 }⟩, 117),
    (.spallClear 0 ⟨1, { rowList 0x4000 4 1 with rsvd := 1 }⟩, 5), (.spallClear 0 ⟨1, { rowList 0x4000 4 1 with scode := 5 }⟩, 117),
    (.spallClear 0 ⟨1, { rowList 0x4000 4 1 with units := 0 }⟩, 117), (.spallClear 0 ⟨1, { rowList 0x4000 4 1 with pitch := 0 }⟩, 117),
    (.spallClear 0 ⟨1, { rowList 0x4000 4 1 with pbase := 0x8004 }⟩, 117),
    (.spallClear 0 ⟨1, { rowList 0x4000 4 1 with pbase := 0x7FFFC00, units := 0x8000000 }⟩, 101),
    (badStream ⟨{ (vec 0x4000 4 4).desc with spallId := 1 }, some (rowList 0x4000 36 4)⟩, 118),
    (badStream ⟨{ (vec 0x4000 4 4).desc with spallId := 1 }, some { rowList 0x4004 36 4 with rows := false }⟩, 118),
    (badStream ⟨{ (vec 0x4000 4 4).desc with spallId := 1 }, some { rowList 0x4000 40 4 with rows := false }⟩, 118),
    (badStream ⟨{ (vec 0x4000 4 4).desc with spallId := 1 }, some { rowList 0x4000 36 3 with rows := false }⟩, 118)] = true := by
  decide +kernel

/-- A list that the program's spall table does not hold under its SPALL_ID (R117), and a swap before any load (R89). -/
theorem test_program_state_rules :
    brokenRule work (.spallClear 0 ⟨1, (rowList 0x4000 4 2)⟩) = some 117 ∧ brokenRule work (.spallClear 0 ⟨2, (rowList 0x4000 4 1)⟩) = some 117
      ∧ brokenRule up (.weightSwap 0) = some 89
      ∧ (let s : State := { work with faces := lmod (fun x => { x with units := { x.units with setA := ⟨[], [], some (.posit16, true)⟩ } }) work.faces 0 }
        brokenRule s (.benchForwardRead 0 rd0) = some 86 ∧ brokenRule s (.drain 0 dr0) = some 86) := by decide +kernel

/-- The 32 bytes of a stream descriptor in R99's layout: BASE, FMT and VER, SPALL_ID, counts and strides; a reserved bit is refused. -/
theorem test_descriptor_bytes :
    (let b : List Byte := leBytes 4 0x1000 ++ [0x22, 0, 1, 0] ++ leBytes 2 4 ++ leBytes 2 1 ++ leBytes 2 1 ++ leBytes 2 1 ++ leBytes 4 2 ++ zeros 12;
      streamOfBytes b = { (vec 0x1000 2 4).desc with spallId := 1, str0 := 2 } ∧ streamBytes (streamOfBytes b) = b)
      ∧ (streamOfBytes ([0, 0, 0, 8] ++ zeros 28)).rsvd = 1 ∧ (streamOfBytes (zeros 5 ++ [1] ++ zeros 26)).rsvd = 0x20
      ∧ (streamOfBytes (zeros 7 ++ [1] ++ zeros 24)).rsvd = 0x2000 := by decide +kernel

theorem test_wf_arithmetic : refuses [
    (.add 0 { v2 2 2 4 with y := wr 0x4000 2 3 }, 103), (.add 0 { v2 2 2 4 with b := rd 0x2000 2 3 }, 103),
    (.add 0 { v2 2 2 4 with y := ⟨withDesc (vec 0x4000 2 4) fun d => { d with str0 := 0 }, none⟩ }, 101),
    (.add 0 { v2 2 2 4 with b := rd 0x2000 6 4 }, 105), (.sub 0 (v2 6 2 4), 105), (.mul 0 (v2 2 6 4), 105), (.mul 0 (v2 12 12 4), 105),
    (.add 0 { v2 2 2 4 with cnt := some 0x7FFFFFD }, 103),
    (.sub 0 { v2 2 2 4 with a := .queue 0 (vec 0 2 4), b := .queue 0x10 (vec 0 2 4) }, 106),
    (.mul 0 { v2 2 2 4 with a := .queue 0x7FFFFF8 (vec 0 2 4) }, 106), (.add 0 { v2 2 2 4 with kept := some ⟨wr 0x6000 15 4, 1⟩ }, 157),
    (.add 0 { v2 2 2 4 with kept := some ⟨wr 0x6000 2 3, 1⟩ }, 103), (.add 0 { v2 2 2 4 with kept := some ⟨wr 0x6000 2 4, 0⟩ }, 157),
    (.add 0 { v2 4 4 2 with y := ⟨withDesc (vec 0x4000 4 2) fun d => { d with str0 := 4 }, none⟩ }, 101),
    (.mul 0 { v2 6 6 4 with sr := true }, 113), (.add 0 { v2 4 4 1 with enc := ⟨false, 0x20⟩ }, 115),
    (.add 0 { v2 4 4 1 with enc := ⟨false, 0x80⟩ }, 115), (.div 0 (v2 6 6 4), 105), (.div 0 { v2 2 2 4 with sr := true }, 113),
    (.max 0 { v2 2 2 4 with sr := true }, 113), (.min 0 (v2 6 2 4), 105), (.muladd 0 (v3 6 6 4), 105), (.abs 0 (v1 6 2 4), 105),
    (.neg 0 (v1 2 6 4), 105), (.sqrt 0 (v1 6 6 4), 105), (.cmpEq 0 (v2 2 2 4), 112), (.cmpLt 0 { v2 2 15 4 with sr := true }, 113),
    (.cmpLe 0 { v2 2 15 4 with b := rd 0x2000 6 4 }, 105)] = true := by decide +kernel

theorem test_wf_masks : refuses [
    (.add 0 { v2 2 2 4 with y := ⟨vec 0x4000 2 4, some (vec 0x5000 2 4, .keep)⟩ }, 388),
    (.add 0 { v2 2 2 4 with y := ⟨vec 0x4000 2 4, some (vec 0x5000 15 3, .keep)⟩ }, 388)] = true := by decide +kernel

theorem test_wf_moves : refuses [
    (.select 0 { sel0 with y := wr 0x4000 3 4 }, 387), (.select 0 { sel0 with b := rd 0x2000 2 3 }, 103),
    (.select 0 { sel0 with mask := vec 0x3000 15 3 }, 388), (.select 0 { sel0 with a := rd 0x1000 15 4, b := rd 0x2000 15 4, y := wr 0x4000 15 4 }, 387),
    (.compress 0 { comp0 with y := wr 0x4000 2 3 }, 108), (.compress 0 { comp0 with countW := 0x7FFFFFD }, 108),
    (.expand 0 { expd0 with y := wr 0x4000 2 3 }, 109), (.expand 0 { expd0 with a := rd 0x1000 3 4 }, 387),
    (.convert 0 { conv0 with a := rd 0x1000 12 4, y := wr 0x4000 13 4 }, 43), (.convert 0 { conv0 with y := wr 0x4000 6 4, sr := true }, 113),
    (.convert 0 { conv0 with stat := ⟨0x7FFFFC1, false⟩ }, 127), (.qadd 0 { qadd0 with y := wr 0x4000 8 2 }, 107),
    (.qadd 0 { qadd0 with b := vec 0x2000 7 1 }, 103), (.qadd 0 { qadd0 with aOf := some (.posit8, 0), bOf := some (.bp8, 0) }, 107),
    (.qadd 0 { qadd0 with aOf := some (.bp8, 1), bOf := some (.bp8, 0) }, 107), (.tswTest 0 { tsw0 with tsw := 0x7FFFFF1 }, 106),
    (.tswTest 0 { tsw0 with out := 0x7FFFFFD }, 106)] = true := by decide +kernel

theorem test_wf_integers_and_reductions : refuses [
    (.quant 0 { quant0 with a := rd 0x1000 6 4 }, 122), (.quant 0 { quant0 with y := wr 0x4000 6 4 }, 122),
    (.quant 0 { quant0 with recs := 0x7FFFFF1 }, 122), (.quant 0 { quant0 with esc := 0x20 }, 115),
    (.quant 0 { quant0 with y := rowDst 4 { rowList 0x4000 4 1 with rows := false } }, 118),
    (.quant 0 { quant0 with y := rowDst 4 (rowList 0x3FFE 4 1) }, 118), (.quant 0 { quant0 with y := rowDst 4 (rowList 0x3FFC 4 1) }, 118),
    (.intFinish 0 { fin0 with acc := rd 0x1000 3 4 }, 125), (.intFinish 0 { fin0 with m := 3 }, 125),
    (.intFinish 0 { fin0 with passes := 1 }, 126), (.intFinish 0 { fin0 with qEsc := true }, 126),
    (.intFinish 0 { fin0 with passes := 2, unit0 := 1, spallId := 1, spall := some (rowList 0x4000 4 2) }, 118),
    (.sum 0 { sum0 with a := rd 0x1000 6 4 }, 110), (.sum 0 { sum0 with a := .mem (withDesc (vec 0x1000 2 4) fun d => { d with cnt1 := 2, str1 := 8 }) }, 103),
    (.maxr 0 { red0 with idx := wr 0x4100 3 1 }, 111), (.minr 0 { red0 with a := rd 0x1000 4 4 }, 111)] = true := by decide +kernel

theorem test_wf_functions : refuses [
    (.fnExp2 0 { fn0 with a := rd 0x1000 4 1 }, 131), (.fnLog2 0 { fn0 with y := wr 0x4000 6 4 }, 131), (.fnTab 0 2 { fn0 with y := wr 0x4000 2 3 }, 103),
    (.fnGate 0 { gate0 with g := rd 0x2000 6 4 }, 131), (.smax1 0 { sm1 with recs := 0x7FFFFF9 }, 150),
    (.smax1 0 { sm1 with mask := some (vec 0x3000 15 3) }, 388), (.smax2 0 { sm2 with y := wr 0x4000 6 4 }, 131),
    (.smax2 0 { sm2 with recs := 0x7FFFFF9 }, 151), (.normStats 0 { ns0 with a := rd 0x1000 4 1 }, 153),
    (.normStats 0 { ns0 with recs := 0x7FFFFF1 }, 153), (.normApply 0 { na0 with gamma := some (rd 0x2000 3 3) }, 103),
    (.normApply 0 { na0 with y := wr 0x4000 6 4 }, 154), (.normGrad1 0 { ng1 with x := rd 0x1000 6 4 }, 166),
    (.normGrad1 0 { ng1 with dy := rd 0x2000 3 3 }, 103), (.normGrad2 0 { ng2 with y := wr 0x4000 6 4 }, 166),
    (.normGrad2 0 { ng2 with dyx := some (wr 0x4000 2 4) }, 167), (.smaxGrad1 0 { sg1 with out := 0x7FFFFFD }, 168),
    (.smaxGrad2 0 { sg2 with y := wr 0x4000 6 4 }, 168)] = true := by decide +kernel

theorem test_wf_scan : refuses [
    (.gsScan 0 { gs0 with len := 0 }, 178), (.gsScan 0 { gs0 with len := 257 }, 178), (.gsScan 0 { gs0 with g := 17 }, 171),
    (.gsScan 0 { gs0 with span := 0 }, 171), (.gsScan 0 { gs0 with ch := 0 }, 179), (.gsScan 0 { gs0 with span := 16 }, 179),
    (.gsScan 0 { gs0 with a := vec 0x1000 3 3, x := vec 0x1100 3 3 }, 179), (.gsScan 0 { gs0 with coff := 2 }, 179),
    (.gsScan 0 { gs0 with coff := 0x40000 }, 179), (.gsScan 0 { gs0 with zeroInit := false, rmap := 0x6000 }, 179)] = true := by
  decide +kernel

theorem test_wf_bench : refuses [
    (.benchForwardRead 0 { rd0 with act := vec 0x1000 3 8 }, 50), (.benchForwardRead 0 { rd0 with base := 256 }, 50),
    (.benchForwardRead 0 { rd0 with row := 256 }, 82), (.benchTransposedRead 0 { rd0 with row := 128 }, 82),
    (.benchForwardRead 0 { rd0 with act := vec 0x1000 2 257 }, 82), (.weightLoad 0 { wl0 with image := 0x10010 }, 87),
    (.weightLoad 0 { wl0 with image := 0x7FFF800 }, 101), (.drain 0 { dr0 with ofmt := 0 }, 65), (.drain 0 { dr0 with ofmt := 6 }, 65),
    (.drain 0 { dr0 with ofmt := 7 }, 65), (.drain 0 { dr0 with base := -257 }, 50), (.drain 0 { dr0 with rows := 0 }, 82), (.drain 0 { dr0 with spallId := 1 }, 99),
    (.drain 0 { dr0 with ofmt := 4 }, 67), (.drain 0 { dr0 with ofmt := 7, dst := .raw 0x1000 0x2000, mask := some (vec 0x3000 15 4, .zero) }, 169),
    (.drain 0 { dr0 with fused := .add (vec 0x1000 2 3) }, 66), (.drain 0 { dr0 with fused := .mul (vec 0x1000 12 4) }, 66),
    (.drain 0 { dr0 with next := .tensor (vec 0x1000 2 3) }, 59), (.drain 0 { dr0 with next := .raw (vec 0x1000 7 4) (.posit16, 0) }, 60),
    (.drain 0 { dr0 with next := .raw (vec 0x1000 8 4) (.posit8, 0) }, 60),
    (.drain 0 { dr0 with mask := some (vec 0x3000 15 3, .zero) }, 388),
    (.drain 0 { dr0 with ofmt := 7, dst := .raw 0x1008 0x2000 }, 101)] = true := by decide +kernel

theorem test_wf_sends : refuses [
    (.fabricSend 0 ⟨0, 0x1000, 0x2000, 64, 0, 1⟩, 217), (.fabricSend 0 ⟨0, 0x1000, 0x2000, 64, 16, 1⟩, 217),
    (.fabricSend 0 ⟨0, 0x1000, 0x2000, 0, 1, 1⟩, 217), (.atomicAdd 0 ⟨0, ⟨0, 1, .posit32, 1, 0, 4, 1, 1⟩, 1, vec 0x1000 3 1⟩, 252),
    (.atomicAdd 0 ⟨0, ⟨2, 1, .posit32, 1, 0, 4, 1, 2⟩, 1, vec 0x1000 3 1⟩, 251),
    (.atomicAdd 0 ⟨0, ⟨0, 1, .posit32, 0, 0, 4, 1, 2⟩, 1, vec 0x1000 3 1⟩, 252)] = true := by decide +kernel


/-! ### Outcomes -/

abbrev Result := Host.Outcome State Fault Refusal

def nextIs (r : Result) (p : State → Bool) : Bool :=
  match r with
  | .next t => p t
  | _ => false

def refusedBy (r : Result) (n : Nat) : Bool :=
  match r with
  | .refused (.programRefused k) => k == n
  | _ => false

/-- What PROG_VERIFY refuses, a meaning refuses by the rule's number. -/
theorem test_refused_by_rule : refusedBy (exec (.add 0 { v2 2 2 4 with b := rd 0x2000 2 3 }) work) 103 = true := by decide +kernel

theorem test_no_word_spells_a_command : decodeTableWord 32 0x12345678 = none := rfl

/-! ### Command packets: a packet of each opcode that is taken and meets its opcode's rules -/

/-- A packet on host queue 0 with Pit 1. -/
def pkt (o : Op) (target execAt : Nat) (params : List Byte) : CmdPacket :=
  let k : CmdPacket := ⟨.queue 0, 0x20, 0, 1, 1, BitVec.ofNat 64 target, BitVec.ofNat 64 execAt, BitVec.ofNat 32 params.length, 0, params⟩
  { k with crc := crc32c (packetBytes (opInfo o).code k) }

/-- One 32-byte unit of parameters. -/
def par (l : List Byte) : List Byte := padTo 32 l
def le (n v : Nat) : List Byte := leBytes n v

/-- `s` with bytes in memory. -/
def poke (s : State) (a : Nat) (b : List Byte) : State := { s with mem := s.mem.writeBytes a b [] }

/-- The packet is taken in `s`, and `p` holds of the state in which its opcode's rules are met. -/
def met (s : State) (o : Op) (pk : CmdPacket) (p : State → Bool) : Bool := s.takes o pk && p (s.popped pk)

def face0 : Nat := 0x101

def pkRead : CmdPacket := pkt .cfgRead 0 0 (par (le 8 0x58 ++ le 2 1))
def pkStage : CmdPacket := pkt .cfgStage 0 0 (par (le 8 0x58 ++ le 8 0x40 ++ le 8 0xFFF))
def pkCommit : CmdPacket := pkt .cfgCommit 0 0 []
def pkLaunch : CmdPacket := pkt .launch 0 0 (par [])
def pkHalt : CmdPacket := pkt .haltAt 0 0 []
def pkEpoch : CmdPacket := pkt .epochBegin 0 0 []

theorem witness_configuration :
    met up .cfgRead pkRead (cfgReadGoes · pkRead) = true ∧ met up .cfgStage pkStage (cfgStageGoes · pkStage) = true
      ∧ met up .cfgCommit pkCommit cfgCommitGoes = true := by decide +kernel

theorem witness_launch_and_halt :
    met up .launch pkLaunch (launchGoes · pkLaunch) = true ∧ up.takes .haltAt pkHalt = true ∧ work.takes .haltAt pkHalt = true := by
  decide +kernel

def told1 (plans : List (BitVec 2)) : State := { up with pit := { up.pit with plans := plans } }
theorem witness_epochs :
    met (told1 [2, 2]) .epochBegin pkEpoch (epochBeginGoes · pkEpoch) = true
      ∧ ({ up with sched := { up.sched with clockLock := some ⟨⟨.queue 0, 1⟩, 100⟩ } } : State).sched.clockLock.isSome = true := by
  decide +kernel

/-- A Pit whose modules would get different clock plans refuses EPOCH_BEGIN with PIT_DENIED (R26). -/
theorem test_epoch_plans :
    (match acceptOf .epochBegin ((told1 [2, 1]).popped pkEpoch) pkEpoch (up.ticket pkEpoch) with
      | .refuse r => r.1 == .pitDenied
      | _ => false) = true := by decide +kernel

/-- CRC-32C stays 0 over zeros; a free field of each artefact's head is chosen so that it reaches 0 there. -/
theorem crc_of_zeros (n : Nat) : (zeros n).foldl (crcReflByte 0x82F63B78) 0 = 0 := by
  induction n with
  | zero => rfl
  | succ n ih =>
    have h : crcReflByte 0x82F63B78 0 0 = 0 := by decide +kernel
    show (zeros n).foldl (crcReflByte 0x82F63B78) (crcReflByte 0x82F63B78 0 0) = 0
    rw [h, ih]

/-- An odd table of 64 segments, its upper 32 listed, all zero (R137). -/
def tableHead : List Byte := [0x20, 6, 0, 1, 1] ++ zeros 7 ++ le 4 32 ++ le 4 0x138FB442 ++ zeros 40
def imgTable : List Byte := (tableHead ++ le 4 0xFFFFFFFF) ++ zeros 512

theorem imgTable_crc : leAt imgTable 60 4 = (crc32c (imgTable.take 60 ++ zeros 4 ++ imgTable.drop 64)).toNat := by
  have h1 : imgTable.take 60 = tableHead := by decide +kernel
  have h2 : imgTable.drop 64 = zeros 512 := by decide +kernel
  have h3 : (tableHead ++ zeros 4).foldl (crcReflByte 0x82F63B78) 0xFFFFFFFF = 0 := by decide +kernel
  have h4 : leAt imgTable 60 4 = 0xFFFFFFFF := by decide +kernel
  unfold crc32c
  rw [h1, h2, h4, List.foldl_append, h3, crc_of_zeros]
  decide +kernel

def tblState : State := poke up 0x10000 imgTable
def pkTable : CmdPacket := pkt .tableLoad face0 0 (par (le 8 0x10000 ++ le 4 576 ++ [2, 1]))
def pkSwap : CmdPacket := pkt .tableSwap face0 0 []
def pkTabQ : CmdPacket := pkt .tableQuery face0 0 []

theorem witness_tables :
    tblState.takes .tableLoad pkTable = true ∧ tableLoadGoes (tblState.popped pkTable) pkTable = true
      ∧ met up .tableSwap pkSwap (tableSwapGoes · pkSwap) = true
      ∧ up.takes .tableQuery pkTabQ = true ∧ (targetFaces pkTabQ.target).isEmpty = false := by
  have hb : (tblState.popped pkTable).mem.bytes (cmdArg pkTable 0 8) (cmdArg pkTable 8 4) = imgTable := by decide +kernel
  refine ⟨by decide +kernel, ?_, by decide +kernel, by decide +kernel, by decide +kernel⟩
  unfold tableLoadGoes
  simp only [hb, imgTable_crc, beq_self_eq_true]
  decide +kernel

def pkCopy : CmdPacket := pkt .memCopy 0 0 (par (le 8 0x10000 ++ le 8 0x20000 ++ le 8 128))
def pkFill : CmdPacket := pkt .memFill 0 0 (par (le 8 0x10000 ++ le 8 128 ++ le 8 0x1122334455667788))
def pkScrub : CmdPacket := pkt .memScrub 0 0 (par (le 8 0x10000 ++ le 8 128))
def pkRetire : CmdPacket := pkt .memRetire 0 0 (par [15])

theorem witness_memory_commands :
    met up .memCopy pkCopy (memCopyGoes · pkCopy) = true ∧ met up .memFill pkFill (memFillGoes · pkFill) = true
      ∧ met up .memScrub pkScrub (memScrubGoes · pkScrub) = true
      ∧ met up .memRetire pkRetire (fun _ => decide (cmdArg pkRetire 0 1 < 16) && cmdZero pkRetire 1 31) = true := by decide +kernel

/-! ### Streams -/

/-- A cell of family 2 with eight places, which begins from zeros or from an initial state. -/
def cellA (zero : Bool) : List Byte :=
  [0x20, 2, 0, 4, 8, 0, 4, 0x11, 3, 7, if zero then 2 else 0] ++ zeros 21
def pkOpen (zero : Bool) : CmdPacket :=
  pkt .streamOpen 0 0 (cellA zero ++ le 4 64 ++ le 4 (if zero then 0 else 64) ++ le 8 (if zero then 0 else 0x10000) ++ [3, 1] ++ zeros 14)

def opensAt (s : State) (pk : CmdPacket) (n : Nat) : Bool :=
  match s.allocate pk.target.toNat n with
  | .ok r => r == (0, none)
  | .error _ => false

theorem witness_stream_open :
    met up .streamOpen (pkOpen true) (fun s => streamOpenGoes s (pkOpen true) && opensAt s (pkOpen true) 64) = true
      ∧ met up .streamOpen (pkOpen false) (fun s => streamOpenGoes s (pkOpen false) && opensAt s (pkOpen false) 128) = true := by
  decide +kernel

/-- A stream of the first slot, in Pit 1 with incarnation 1. -/
def ent0 : StreamEnt := { blankStream 0 none (cellA true) 64 0 with incarn := 1, pit := 1, svcL := 3, svcValid := true }
def withEnt (e : StreamEnt) : State := { up with strm := { up.strm with ents := [e] } }
def inc1 : Nat := 2 ^ 16

def pkPause : CmdPacket := pkt .streamPause inc1 0 []
def pkResume : CmdPacket := pkt .streamResume inc1 0 []
def pkClose : CmdPacket := pkt .streamClose inc1 0 []
def pkStreamQ : CmdPacket := pkt .streamQuery inc1 0 []

theorem witness_stream_commands :
    (([.paused, .open_, .active] : List StreamSt).all fun st =>
      let e := { ent0 with state := st }
      met (withEnt e) .streamPause pkPause (·.named pkPause e)) = true
      ∧ (([.paused, .moved, .open_, .active] : List StreamSt).all fun st =>
        let e := { ent0 with state := st }
        met (withEnt e) .streamResume pkResume (·.named pkResume e)) = true
      ∧ met (withEnt ent0) .streamClose pkClose (·.named pkClose ent0) = true
      ∧ met (withEnt ent0) .streamQuery pkStreamQ (·.named pkStreamQ ent0) = true := by decide +kernel

def tkt1 : Ticket := ⟨⟨.queue 0, 7⟩, 90⟩
def lifted (s : State) : State :=
  { s with faces := lmod (withProg { prog0 with lifts := [⟨crc64 (cellA true), 4, 1, 0x9000⟩] }) s.faces 0 }
def chunkA (len : Nat) : Chunk := ⟨len, 0x10000, [], 0x20000, [], none⟩
def flight0 (split : Bool) : InFlight := ⟨tkt1, split, chunkA 2, 98, 100⟩
def req0 (todo : List Chunk) : ChunkReq := ⟨tkt1, 97, !todo.isEmpty, todo, 0, [], none⟩

/-- A request for one chunk of two steps on a lifted cell; the bytes of a step are the serving compiler's (log entry 21). -/
def pkChunk : CmdPacket := pkt .streamChunk inc1 0 (([0x20, 1] ++ zeros 6 ++ le 8 0x10000 ++ le 8 0x20000) ++ zeros 72)

theorem witness_stream_chunk (hi : Config.inRowBytes (cellA true) = 8) (ho : Config.outRowBytes (cellA true) = 8) :
    (lifted (withEnt ent0)).takes .streamChunk pkChunk = true ∧ chunkForm pkChunk = none
      ∧ ((lifted (withEnt ent0)).popped pkChunk).named pkChunk ent0 = true
      ∧ chunkRefusal ((lifted (withEnt ent0)).popped pkChunk) pkChunk ent0 = none := by
  refine ⟨by decide +kernel, by decide +kernel, by decide +kernel, ?_⟩
  have hc : ent0.cell = cellA true := rfl
  unfold chunkRefusal
  rw [hc, hi, ho]
  decide +kernel

/-- Chunk completions: the last chunk of a request, and one with more to come on an open, a closing and an exporting stream. -/
theorem witness_chunk_completions :
    (([([], false, .active), ([chunkA 2], true, .active), ([chunkA 2], false, .exporting), ([chunkA 2], false, .active)] :
        List (List Chunk × Bool × StreamSt)).all fun x =>
      let e := { ent0 with state := x.2.2, closing := x.2.1, flight := [flight0 true], queue := [req0 x.1] }
      let s : State := { work with strm := { work.strm with ents := [e] } }
      s.streamOf 0 == some e && decide ((flight0 true).doneAt ≤ s.tk.tickCount.toNat) && s.running
        && (e.queue.find? fun r => r.tkt == (flight0 true).tkt) == some (req0 x.1)) = true := by decide +kernel

def pkExport (at_ : Nat) : CmdPacket := pkt .streamExport inc1 at_ (par (le 8 0x10000))
def export0 (rec_ : Option (List Byte)) : Export := ⟨tkt1, 99, 0x10000, 0, false, rec_, 0, none, false⟩
def exporting (x : Export) : StreamEnt := { ent0 with state := .exporting, exports := [x] }

theorem witness_exports :
    met (withEnt ent0) .streamExport (pkExport 0) (fun s => s.named (pkExport 0) ent0 && streamExportGoes s (pkExport 0) ent0) = true
      ∧ up.takes .streamExport (pkExport 101) = true ∧ (pkExport 101).execAt ≠ 0
      ∧ (let e := exporting (export0 none);
        (withEnt e).streamOf 0 = some e ∧ e.exports = [export0 none] ∧ e.state = .exporting ∧ e.flight = [] ∧ e.queue = []
          ∧ e.moving = some (export0 none) ∧ (export0 none).at_ < (withEnt e).tk.tickCount.toNat)
      ∧ (let e := { ent0 with state := .moved, lastRec := some (zeros 160, 90) };
        met (withEnt e) .streamExport (pkExport 0) (fun s => s.named (pkExport 0) e && streamExportGoes s (pkExport 0) e) = true)
      ∧ (let x := { export0 (some []) with remote := true };
        (exporting x).exports.find? (fun x => x.record.isSome && !x.written) = some x ∧ exportFailure x .landed = none
          ∧ exportFailure x .unreachable = some (.notReady, [])) := by decide +kernel

/-- A record of the stream (R203); its step count makes the CRC-64 of its head zero, which zeros keep. -/
def recHead : List Byte :=
  [0x20, 4, 0, 3] ++ le 4 64 ++ zeros 8 ++ le 8 0x7A77CCFFDB0AD580 ++ le 8 0x2000000000000000 ++ le 8 0x13E32E30BD0981CB ++ le 8 100 ++ zeros 4
    ++ le 4 1 ++ zeros 8
def cellRec : List Byte := recHead ++ zeros 72 ++ le 4 160 ++ zeros 20
def entRec : StreamEnt := { ent0 with stepCount := 0x13E32E30BD0981CB }

theorem crc64_of_zeros (n : Nat) : (zeros n).foldl (crcByte 64 0x42F0E1EBA9EA3693) 0 = 0 := by
  induction n with
  | zero => rfl
  | succ n ih =>
    have h : crcByte 64 0x42F0E1EBA9EA3693 0 0 = 0 := by decide +kernel
    rw [zeros, List.replicate_succ, List.foldl_cons, h, ← zeros, ih]

theorem recHead_crc : crc64 (recHead ++ zeros 64) = 0 := by
  have h : recHead.foldl (crcByte 64 0x42F0E1EBA9EA3693) 0 = 0 := by decide +kernel
  unfold crc64
  rw [List.foldl_append, h, crc64_of_zeros]
  rfl

/-- The record that the module itself writes of this stream. -/
theorem test_record : ((withEnt entRec).recordOf entRec).take 64 = recHead := by decide +kernel

def pkImport : CmdPacket := pkt .streamImport 0 0 (par (le 8 0x10000) ++ cellA true)
def pkImportOther : CmdPacket := pkt .streamImport 0 0 (par (le 8 0x10000 ++ [1]) ++ cellA true)
def recState : State := poke up 0x10000 cellRec
def recState2 : State := { recState with cfg := { up.cfg with compat := true } }

theorem import_crc (c i : Nat) (hc : c = 64) (hi : i = 0) :
    (leAt cellRec (64 + c + i) 8 == (crc64 (cellRec.take (64 + c + i))).toNat && leAt cellRec (72 + c + i) 4 == 96 + c + i) = true := by
  subst hc hi
  have h : cellRec.take (64 + 64 + 0) = recHead ++ zeros 64 := by decide +kernel
  rw [h, recHead_crc]
  decide +kernel

/-- From this module, and, where the import allows it, from a module of another arithmetic identity. -/
theorem witness_imports :
    recState.takes .streamImport pkImport = true ∧ streamImportGoes (recState.popped pkImport) pkImport = true
      ∧ opensAt ((recState.popped pkImport).noteReads .hub [(0x10000, 160)]) pkImport 64 = true
      ∧ recState2.takes .streamImport pkImportOther = true
      ∧ streamImportGoes (recState2.popped pkImportOther) pkImportOther = true := by
  have h1 : (recState.popped pkImport).recordAt pkImport = cellRec := by decide +kernel
  have h2 : (recState2.popped pkImportOther).recordAt pkImportOther = cellRec := by decide +kernel
  have hc : leAt cellRec 4 4 = 64 := by decide +kernel
  have hi : leAt cellRec 8 4 = 0 := by decide +kernel
  refine ⟨by decide +kernel, ?_, by decide +kernel, by decide +kernel, ?_⟩
  · unfold streamImportGoes importRefusal
    simp only [h1, import_crc _ _ hc hi]
    decide +kernel
  · unfold streamImportGoes importRefusal
    simp only [h2, import_crc _ _ hc hi]
    decide +kernel

/-! ### Buckets -/

def pileAt (x : Nat) : Nat := pileBase + x

/-- A bucket of posit32 units in device memory, filled by two marks. -/
def bucketBytes : List Byte :=
  [0x20, 2, 0, 0] ++ le 2 2 ++ zeros 10 ++ le 8 0x100000 ++ le 8 0x200000 ++ le 8 (pileAt 0x11000000) ++ le 4 0x10000 ++ zeros 20
def pkDef : CmdPacket := pkt .collBucketDef 5 0 bucketBytes
def pkArm : CmdPacket := pkt .collArm 5 0 []
def pkCollQ : CmdPacket := pkt .collQuery 5 0 []
def bucket0 : Bucket := Bucket.blank 5 (bucketDesc bucketBytes)
def withBucket (s : State) (b : Bucket) : State := { s with coll := { s.coll with buckets := [b] } }

theorem witness_bucket_commands :
    met up .collBucketDef pkDef (fun s => (bucketForm pkDef).isNone && (bucketRefusal s (bucketDesc ((cmdParams pkDef).take 64)) 5).isNone
        && (s.bucket 5).isNone) = true
      ∧ met (withBucket up bucket0) .collBucketDef pkDef (fun s => (bucketRefusal s (bucketDesc ((cmdParams pkDef).take 64)) 5).isNone
        && s.bucket 5 == some bucket0) = true
      ∧ met (withBucket up bucket0) .collArm pkArm (fun s => s.bucket 5 == some bucket0 && bucket0.state == .unarmed) = true
      ∧ met (withBucket up bucket0) .collQuery pkCollQ (fun s => s.bucket 5 == some bucket0) = true
      ∧ met up .collQuery pkCollQ (fun s => (s.bucket 5).isNone) = true := by decide +kernel

/-- Marks 1 and 2 of a bucket of two, a mark of a full one, of an unarmed one, and of none. -/
theorem witness_fill_marks :
    work.issues 0 = true ∧ bucket0.desc.nfill = 2 ∧ (work.bucket 5).isNone = true
      ∧ ([{ bucket0 with state := .filling }, { bucket0 with state := .filling, fills := 1 }, { bucket0 with state := .filling, full := true },
        bucket0].all fun b => (withBucket work b).bucket 5 == some b && (withBucket work b).issues 0) = true := by decide +kernel

/-! ### Tests, errors, firmware -/

def pkBist (kind idx tgt : Nat) : CmdPacket := pkt .bistRun tgt 0 (par [BitVec.ofNat 8 kind, BitVec.ofNat 8 idx])
def disabledPort : State := { up with fab := { up.fab with ports := lmod (fun x => { x with state := .disabled }) up.fab.ports 5 } }
def noPit (s : State) : State := { s with pit := Pit.reset }
def pk0 (o : Op) (target : Nat) (params : List Byte) : CmdPacket :=
  let k : CmdPacket := ⟨.queue 0, 0x20, 0, 1, 0, BitVec.ofNat 64 target, 0, BitVec.ofNat 32 params.length, 0, params⟩
  { k with crc := crc32c (packetBytes (opInfo o).code k) }
def pkBist3 : CmdPacket := pk0 .bistRun 0 (par [3, 0])
def job (k : Nat) : BistJob := ⟨tkt1, k, 5, [0]⟩
def withJob (j : BistJob) : State := { up with bists := [j] }

theorem witness_tests :
    met up .bistRun (pkBist 0 0 face0) (bistRunGoes · (pkBist 0 0 face0)) = true
      ∧ met up .bistRun (pkBist 1 15 0) (bistRunGoes · (pkBist 1 15 0)) = true
      ∧ met disabledPort .bistRun (pkBist 2 5 0) (bistRunGoes · (pkBist 2 5 0)) = true
      ∧ met (noPit up) .bistRun pkBist3 (bistRunGoes · pkBist3) = true
      ∧ ([0, 1, 2, 3].all fun k => ((withJob (job k)).bists.find? fun j => j.tkt.key == tkt1.key) == some (job k)) = true
      ∧ up.takes .readyQuery (pkt .readyQuery 0 0 []) = true ∧ up.takes .faceRetire (pkt .faceRetire face0 0 []) = true := by decide +kernel

def err0 : ErrRec := ⟨1, false, 0x0103, 1, 0, 0, 100, 0, 0, zeros 16⟩
def pkErr (src n seq : Nat) : CmdPacket := pkt .errRead 0 0 (par ([BitVec.ofNat 8 src, BitVec.ofNat 8 n, 0, 0] ++ le 4 seq))
def pkAck : CmdPacket := pkt .errAck 0 0 (par (le 8 1))
def noted : State := { up with errs := { up.errs with lastSeq := 1, log := [⟨1, err0⟩], primary := some ⟨1, err0⟩ } }

theorem witness_error_records :
    ([(0, 0, 0), (1, 0, 0), (2, 1, 1), (2, 63, 1)].all fun x =>
      let k := pkErr x.1 x.2.1 x.2.2
      met noted .errRead k (errReadGoes · k)) = true
      ∧ met noted .errAck pkAck (errAckGoes · pkAck) = true
      ∧ (let r : State := { noted with errs := { noted.errs with raised := [err0] } };
        r.pwr.weighbridge = true ∧ r.errs.raised = [err0] ∧ r.errs.primary ≠ none ∧ r.errs.secondary = none)
      ∧ { up.errs with raised := [err0] }.primary = none
      ∧ { noted.errs with raised := [err0], secondary := some ⟨2, err0⟩ }.secondary ≠ none := by decide +kernel

def pkRelay : CmdPacket := pkt .fwRelayEnable 0 0 (par [1])
def pkConfirm : CmdPacket := pkt .fwConfirm 0 0 []
def awaiting : State := { up with fw := { up.fw with awaiting := true, opMin := 1439 } }

theorem witness_firmware_commands :
    up.takes .fwStatus (pkt .fwStatus 0 0 []) = true
      ∧ met up .fwRelayEnable pkRelay (fun _ => decide (cmdArg pkRelay 0 1 < 2) && cmdZero pkRelay 1 31) = true
      ∧ met awaiting .fwConfirm pkConfirm (fun s => s.fw.awaiting && !s.fw.fallbackDue && s.selfCheck) = true
      ∧ met up .fwConfirm pkConfirm (fun s => !s.fw.awaiting) = true
      ∧ awaiting.pwr.weighbridge = true ∧ awaiting.fw.awaiting = true := by decide +kernel

/-- Piece 1 of a two-piece update: 64 KiB, all zeros but for its head. -/
def piece1 : List Byte :=
  let h := [0x20, 1, 0, 0] ++ le 4 7 ++ le 4 1 ++ le 4 2 ++ le 4 65504 ++ zeros 8
  let z := zeros (65536 - 32)
  h ++ le 4 (crc32c (h ++ zeros 4 ++ z)).toNat ++ z

/-! ### Pits and twins -/

def pkCreate : CmdPacket := pkt .pitCreate 0 0 (par ([0, 0, 0, 0, 0, 0, 0, 0] ++ le 8 1000 ++ le 8 0))
def pkDestroy : CmdPacket := pkt .pitDestroy 0 0 []

theorem witness_pits :
    met (noPit up) .pitCreate pkCreate (pitCreateGoes · pkCreate) = true ∧ up.takes .pitDestroy pkDestroy = true
      ∧ (noPit { up with pit := { up.pit with scrub := some tkt1 } }).pit.scrub = none
      ∧ ({ up with pit := { Pit.reset with scrub := some tkt1 } } : State).pit.scrub = some tkt1 := by decide +kernel

def peer0 : Peer :=
  ⟨3, 9, BitVec.ofNat 64 up.aid, false, up.cfg.tpCur, up.tk.notice, up.faces.map Face.progDigest, up.faces.map fun x => x.state.code,
    (0, 0, 0), 3⟩
def pkPair : CmdPacket := pkt .twinPair 0 0 (par (le 2 3 ++ le 2 9))

theorem witness_twins :
    (let s0 : State := { up with twin := { up.twin with heard := some peer0 } };
      let s1 := s0.popped pkPair;
      s0.takes .twinPair pkPair = true ∧ peer0.faddr.toNat = cmdArg pkPair 0 2 ∧ peer0.pit.toNat = cmdArg pkPair 2 2
        ∧ cmdZero pkPair 4 28 = true ∧ s1.fastSoon = false ∧ s1.twinAgrees peer0 = true)
      ∧ { up with twin := { up.twin with paired := true, partner := 3 } }.takes .twinUnpair (pkt .twinUnpair 0 0 []) = true := by decide +kernel

/-- From reset and bring-up on, TWIN_PAIR with an agreeing partner pairs the module, and one of a fast Pit is refused BAD_PARAM (R26,
R234). -/
theorem test_twin_pair :
    nextIs (exec (.twinPair ⟨pkPair, some peer0⟩) up) (fun t => t.twin.paired && t.twin.partner == 3 && t.twin.partnerPit == 9) = true
      ∧ nextIs (exec (.twinPair ⟨pkPair, some { peer0 with fast := true }⟩) up) (fun t => !t.twin.paired
        && t.out.any fun e => match e with | .reply r => r.status == .badParam | _ => false) = true := by decide +kernel

/-! ### Command packets that are refused -/

def refuses1 (x : Answer) : Bool :=
  match x with
  | .refuse _ => true
  | _ => false

def pkOld : CmdPacket := { pkHalt with ver := 0x21 }
def pkNoPit : CmdPacket := pk0 .haltAt 0 []
def pkOdd : CmdPacket := pkt .cfgRead 0 0 (par (le 8 0x5C ++ le 2 1))

/-- A packet of another version, one of another Pit, and one whose opcode's rule refuses it. -/
theorem witness_refused_packets :
    (up.open_ .haltAt pkOld && (formChecks (opInfo .haltAt).code (some .haltAt) pkOld).isSome) = true
      ∧ (up.open_ .haltAt pkNoPit && (formChecks (opInfo .haltAt).code (some .haltAt) pkNoPit).isNone
        && (packetChecks (up.popped pkNoPit) .haltAt pkNoPit).isSome) = true
      ∧ met up .cfgRead pkOdd (fun s => refuses1 (acceptOf .cfgRead s pkOdd (s.ticket pkOdd))) = true := by decide +kernel

/-! ### Long artefacts: a firmware piece, a route image and a program image -/

theorem read_of_nothing (n a : Nat) : readFrom n [] a = zeros n := by
  induction n generalizing a with
  | zero => rfl
  | succ n ih => show 0 :: readFrom n [] (a + 1) = 0 :: zeros n; rw [ih]

theorem zeros_byte {n : Nat} {x : Byte} (h : x ∈ zeros n) : x = 0 := (List.mem_replicate.1 h).2

/-- The head of piece 1 of a two-piece update (R354); its ID makes the CRC of head and zeros all ones. -/
def pieceHead1 : List Byte := [0x20, 1, 0, 0] ++ le 4 0x68245275 ++ le 4 1 ++ le 4 2 ++ le 4 65504 ++ zeros 8
def pieceA : List Byte := (pieceHead1 ++ le 4 0xFFFFFFFF) ++ zeros 65504

theorem pieceA_crc : pieceCrcOk pieceA = true := by
  have h1 : pieceA.take 28 = pieceHead1 := by decide +kernel
  have h2 : pieceA.drop 32 = zeros 65504 := by
    show ((pieceHead1 ++ le 4 0xFFFFFFFF) ++ zeros 65504).drop 32 = _
    rw [List.drop_append_of_le_length (by decide)]
    rfl
  have h3 : (pieceHead1 ++ zeros 4).foldl (crcReflByte 0x82F63B78) 0xFFFFFFFF = 0 := by decide +kernel
  unfold pieceCrcOk crc32c
  rw [h1, h2, List.foldl_append, h3, crc_of_zeros]
  decide +kernel

theorem pieceA_head : pieceFault pieceA = none ∧ up.fw.takes (pieceHead pieceA) = true := by decide +kernel
theorem pieceA_length : pieceA.length = pieceLen := by
  show ((pieceHead1 ++ le 4 0xFFFFFFFF) ++ zeros 65504).length = _
  rw [List.length_append, zeros, List.length_replicate]
  rfl

def pieceState : State := { up with mem := { up.mem with cells := listed 0x10000 (pieceHead1 ++ le 4 0xFFFFFFFF) } }
def pkPiece : CmdPacket := pkt .fwPiece 0 0 (par (le 4 0x68245275 ++ le 4 1 ++ le 4 2 ++ [1, 0, 0, 0] ++ le 8 0x10000))

theorem pieceState_bytes : (pieceState.popped pkPiece).pieceOf pkPiece = pieceA := by
  show readFrom (65504 + 32) (cellsFrom 0x10000 (listed 0x10000 (pieceHead1 ++ le 4 0xFFFFFFFF))) 0x10000 = _
  have h : ∀ n, readFrom (n + 32) (cellsFrom 0x10000 (listed 0x10000 (pieceHead1 ++ le 4 0xFFFFFFFF))) 0x10000
      = (pieceHead1 ++ le 4 0xFFFFFFFF) ++ readFrom n [] 0x10020 := fun n => by rfl
  rw [h, read_of_nothing]
  rfl

theorem witness_firmware_piece :
    pieceState.takes .fwPiece pkPiece = true ∧ fwPieceGoes (pieceState.popped pkPiece) pkPiece = true
      ∧ (pieceState.popped pkPiece).fw.takes (pieceHead ((pieceState.popped pkPiece).pieceOf pkPiece)) = true
      ∧ ({ up with fw := { up.fw with relay := true } } : State).fw.relay = true ∧ pieceA.length = pieceLen ∧ pieceFault pieceA = none
      ∧ pieceCrcOk pieceA = true := by
  refine ⟨by decide +kernel, ?_, ?_, rfl, pieceA_length, pieceA_head.1, pieceA_crc⟩
  · unfold fwPieceGoes
    simp only [pieceState_bytes, pieceA_crc, pieceA_head.1]
    decide +kernel
  · rw [pieceState_bytes]
    decide +kernel

/-- The head of a route image that sends every packet to port 0 (R270); its ROUTE_ID makes the CRC of head and zeros all ones. -/
def routeHead : List Byte := [0x20, 0, 0, 0] ++ le 4 0x6551D642 ++ [1] ++ zeros 51
def routeState : State :=
  { noPit up with mem := { up.mem with cells := listed 0x10000 (routeHead ++ le 4 0xFFFFFFFF) } }
def routeA : List Byte := (routeHead ++ le 4 0xFFFFFFFF) ++ zeros 65536
def pkRoute : CmdPacket := pk0 .routeEpoch 0 (par (le 8 0x10000 ++ le 4 65600))

theorem routeState_bytes : (routeState.popped pkRoute).mem.bytes (cmdArg pkRoute 0 8) routeLength = routeA := by
  have ha : cmdArg pkRoute 0 8 = 0x10000 := by decide +kernel
  rw [ha]
  show readFrom (65536 + 64) (cellsFrom 0x10000 (listed 0x10000 (routeHead ++ le 4 0xFFFFFFFF))) 0x10000 = _
  have h : ∀ n, readFrom (n + 64) (cellsFrom 0x10000 (listed 0x10000 (routeHead ++ le 4 0xFFFFFFFF))) 0x10000
      = (routeHead ++ le 4 0xFFFFFFFF) ++ readFrom n [] 0x10040 := fun n => by rfl
  rw [h, read_of_nothing]
  rfl

theorem zip_zeros_none (n m : Nat) (bad : Nat → Byte → Bool) (h : ∀ i, bad i 0 = false) :
    (((List.range m).zip (zeros n)).find? fun (i, x) => bad i x) = none := by
  rw [List.find?_eq_none]
  intro p hp
  have e : p.2 = 0 := zeros_byte (List.of_mem_zip (a := p.1) (b := p.2) hp).2
  show ¬bad p.1 p.2 = true
  rw [e, h]
  decide

theorem zeros_drop (k n : Nat) : (zeros n).drop k = zeros (n - k) := List.drop_replicate
theorem zeros_take (k n : Nat) (h : k ≤ n) : (zeros n).take k = zeros k := by
  rw [zeros, List.take_replicate, Nat.min_eq_left h, zeros]

theorem routeA_uni : (routeA.drop 64).take 32768 = zeros 32768 := by
  show (((routeHead ++ le 4 0xFFFFFFFF) ++ zeros 65536).drop 64).take 32768 = _
  rw [List.drop_append_of_le_length (by decide), List.drop_eq_nil_of_le (by decide), List.nil_append, zeros_take _ _ (by decide)]

theorem routeA_bc : routeA.drop (64 + 32768) = zeros 32768 := by
  show ((routeHead ++ le 4 0xFFFFFFFF) ++ zeros 65536).drop (64 + 32768) = _
  rw [List.drop_append, List.drop_eq_nil_of_le (by decide), List.nil_append, zeros_drop]
  rfl

theorem routeA_crc : leNat ((routeA.drop 60).take 4) = (crc32c (routeA.take 60 ++ zeros 4 ++ routeA.drop 64)).toNat := by
  have h1 : routeA.take 60 = routeHead := by decide +kernel
  have h2 : routeA.drop 64 = zeros 65536 := by
    show ((routeHead ++ le 4 0xFFFFFFFF) ++ zeros 65536).drop 64 = _
    rw [List.drop_append_of_le_length (by decide)]
    rfl
  have h3 : (routeHead ++ zeros 4).foldl (crcReflByte 0x82F63B78) 0xFFFFFFFF = 0 := by decide +kernel
  have h4 : leNat ((routeA.drop 60).take 4) = 0xFFFFFFFF := by decide +kernel
  unfold crc32c
  rw [h1, h2, h4, List.foldl_append, h3, crc_of_zeros]
  decide +kernel

theorem routeA_fault (s : State) (hp : s.pit.id = 0) (hd : ∀ p, s.barredPort p = false) (hf : s.fab.faddr = 0) :
    s.routeFault routeA = none := by
  have hb : ∀ a, s.inBlock a = false := by intro a; simp [State.inBlock, hp]
  have h0 : ([1, 2, 3, 9, 10, 11] ++ rangeFrom 14 46).find? (fun i => decide (leAt routeA i 1 ≠ 0)) = none := by decide +kernel
  have h1 : leAt routeA 12 2 = 0 := by decide +kernel
  have h2 : leAt routeA 4 4 ≠ 0 := by decide +kernel
  unfold State.routeFault
  simp only [routeA_uni, routeA_bc, h0, h1, h2, hf, hb, hd]
  rw [zip_zeros_none 32768 _ (fun _ x => decide (128 ≤ x.toNat)) (fun _ => by decide), zip_zeros_none 32768 _ (fun _ _ => false || false) (fun _ => rfl)]
  simp

theorem route_goes (s : State) (pk : CmdPacket) (b : List Byte) (hb : s.mem.bytes (cmdArg pk 0 8) routeLength = b)
    (h1 : cmdArg pk 8 4 = routeLength) (h2 : cmdZero pk 12 20 = true) (h3 : s.mem.cmdRangeOk (cmdArg pk 0 8) routeLength = true)
    (h4 : (s.mem.markedIn (cmdArg pk 0 8) routeLength).isEmpty = true) (h5 : leAt b 0 1 = 0x20)
    (h6 : leNat ((b.drop 60).take 4) = (crc32c (b.take 60 ++ zeros 4 ++ b.drop 64)).toNat)
    (h7 : (s.noteReads .hub [(cmdArg pk 0 8, routeLength)]).routeFault b = none) : routeEpochGoes s pk = true := by
  unfold routeEpochGoes
  simp only [hb, h1, h2, h3, h4, h5, h6, h7]
  simp
theorem witness_route_image :
    routeState.takes .routeEpoch pkRoute = true ∧ routeEpochGoes (routeState.popped pkRoute) pkRoute = true := by
  refine ⟨by decide +kernel, route_goes _ _ routeA routeState_bytes (by decide +kernel) (by decide +kernel) (by decide +kernel)
    (by decide +kernel) (by decide +kernel) routeA_crc (routeA_fault _ (by decide +kernel) (fun p => ?_) (by decide +kernel))⟩
  have h : ∀ q : Fin 6, (((routeState.popped pkRoute).noteReads .hub [(cmdArg pkRoute 0 8, routeLength)]).portAt q).state.barred
      = false := by decide +kernel
  unfold State.barredPort
  by_cases hp : p < 6
  · simpa [hp] using h ⟨p, hp⟩
  · simp [hp]

/-! The header of a program image for Face 0 (R327). What R389 leaves out of the manual is Config's: the instructions break no rule, their
share of HBM is 100 bytes a round, and they have no descriptors. -/

def imgProg : List Byte := [0x20, 0x0A] ++ le 2 0x28 ++ [128, 0] ++ le 2 0xFFFF ++ zeros 56
def progState : State := poke up 0x10000 imgProg
def pkLoad : CmdPacket := pkt .progLoad face0 0 (par (le 8 0x10000 ++ le 4 64 ++ zeros 4 ++ le 8 (crc64 imgProg).toNat))
def pkVerify : CmdPacket := pkt .progVerify face0 0 (par (le 8 0x10000 ++ le 4 64 ++ zeros 4 ++ le 8 (crc64 imgProg).toNat))

theorem witness_programs (hr : ∀ f, Config.imageBrokenRule imgProg f = 0) (hs : ∀ f, Config.imageHbmShare imgProg f = 100)
    (hd : ∀ f, Config.imageStreams imgProg f = []) (hl : ∀ f, Config.imageSpalls imgProg f = []) :
    progState.takes .progLoad pkLoad = true ∧ programGoes (progState.popped pkLoad) pkLoad = true
      ∧ progState.takes .progVerify pkVerify = true ∧ programGoes (progState.popped pkVerify) pkVerify = true := by
  have h1 : (progState.popped pkLoad).imageOf pkLoad = imgProg := by decide +kernel
  have h2 : (progState.popped pkVerify).imageOf pkVerify = imgProg := by decide +kernel
  refine ⟨by decide +kernel, ?_, by decide +kernel, ?_⟩ <;>
  · unfold programGoes
    simp only [h1, h2, State.progCheck, State.progRule, progOf, descFault, hr, hs, hd, hl]
    decide +kernel

/-! ### The tick and the Faces -/

def withFace (s : State) (g : Face → Face) : State := { s with faces := lmod g s.faces 0 }
def withTk (s : State) (g : TickRegs → TickRegs) : State := { s with tk := g s.tk }
def halts1 (s : State) (l : List Halt) : State := { s with sched := { s.sched with halts := l } }

theorem witness_steps :
    work.wf = true ∧ (step { work with pending := [.keeperMac 0 3] } = exec (.keeperMac 0 3) { work with pending := [] })
      ∧ nextIs (step { work with pending := [.keeperMac 0 3] }) (fun t => t.pending.isEmpty) = true := by
  refine ⟨by decide +kernel, rfl, by decide +kernel⟩

theorem witness_boundaries :
    nextIs (exec .tickBoundary work) (fun t => t.tk.tickCount == 101) = true ∧ work.pwr.hub = true ∧ work.tk.originDue = false
      ∧ nextIs (exec .tickBoundary (withTk up fun k => { k with startTick := 500, originDue := true }))
          (fun t => t.tk.tickCount == BitVec.ofNat 64 (withTk up fun k => { k with startTick := 500, originDue := true }).nextTick) = true
      ∧ State.reset.pwr.hub = false := by decide +kernel

def halting : State := halts1 { work with tk := { work.tk with run := .halting } } [⟨100, 3, false⟩, ⟨101, 1, true⟩]

theorem witness_halts :
    halting.canHalt = true ∧ earliestHalt (halting.sched.halts.filter fun h => h.target == halting.tk.tickCount.toNat) = some ⟨100, 3, false⟩
      ∧ halting.anyRunning = false ∧ (withFace halting fun x => { x with running := true }).anyRunning = true
      ∧ (withTk halting fun k => { k with haltTaken := true }).tk.haltTaken = true
      ∧ (withTk halting fun k => { k with haltTaken := true }).anyRunning = false := by decide +kernel

def armed : State :=
  { up with tk := { up.tk with run := .armed }, sched := { up.sched with launch := some ⟨tkt1, 100, 0⟩ } }

theorem witness_launch_takes_effect :
    armed.sched.launch = some ⟨tkt1, 100, 0⟩ ∧ armed.tk.run = .armed ∧ (100 : Nat) = armed.tk.tickCount.toNat
      ∧ (halts1 armed [⟨105, 1, false⟩]).sched.halts ≠ [] := by decide +kernel

/-- Face 0 at work in its program, with its slip and the module's policy. -/
def busy (slip : Nat) (halt : Bool) : State :=
  { withFace work (fun x => { x with running := true, slip := slip }) with cfg := { work.cfg with haltPolicy := halt } }
def own2 : State := halts1 (busy 0 true) [⟨101, 2, false⟩]

/-- The ends at the last cycle that the tick gives and one past it, under both policies; the second overrun; an extension already known. -/
theorem witness_program_ends :
    ([busy 0 false, busy 1 false, busy 0 true, own2].all fun s => (s.face 0).running && (s.face 0).stall.isNone) = true
      ∧ (busy 0 true).overran = false ∧ own2.overran = true ∧ (busy 0 true).canHalt = true ∧ (busy 0 false).tickCycles 0 - 256 = 30464
      ∧ (busy 0 false).tk.extKnown < (busy 0 false).extBack 0 + ceilDiv (10 * (30465 - 30464)) (frameTenths 2)
      ∧ (withTk (busy 0 false) fun k => { k with extKnown := 1023 }).tk.extKnown = 1023
      ∧ 1 < ({ busy 0 true with pit := { up.pit with sx := 1 } } : State).pitSize := by decide +kernel

/-- The worked tick of R22: 30,720 cycles at plan P2; an end one cycle past asks for one frame more. -/
theorem test_program_end_overrun :
    nextIs (exec (.faceProgramEnd 0 30464) (busy 0 false)) (fun t => t.sched.exts.isEmpty && !(t.face 0).running) = true
      ∧ nextIs (exec (.faceProgramEnd 0 30465) (busy 0 false)) (fun t => t.sched.exts.map (fun e => (e.target, e.ext)) == [(101, 1)]) = true
      ∧ nextIs (exec (.faceProgramEnd 0 30465) (busy 0 true)) (fun t => t.sched.halts == [⟨101, 2, false⟩] && t.sched.exts.isEmpty) = true := by
  decide +kernel

/-- The transfer of `mv0`, whose source a message of tag 4 is to reach for tick 100 and does not, and a Face that waits for it. -/
def move1 : Instr := .moverTransfer 0 mv0
def key1 : MsgKey := ⟨0, 4, 100⟩
def expecting : State := withFace work (withProg { prog0 with expects := [⟨0, 4, 0x10000, 64, 2, 1, 0⟩] })
def waiting (s : State) : State := withFace s fun x => { x with stall := some (.message key1), held := [move1] }

theorem witness_slips_and_stalls :
    ((busy 17 false).face 0).running = true ∧ (busy 17 false).cfg.stallLimit.toNat < ((busy 17 false).face 0).slip
      ∧ (busy 17 false).canHalt = true ∧ ((busy 16 false).face 0).slip ≤ (busy 16 false).cfg.stallLimit.toNat
      ∧ 1 < ({ busy 17 false with pit := { up.pit with sx := 1 } } : State).pitSize
      ∧ ((waiting work).face 0).stall = some (.message key1) ∧ (∀ i ∈ ((waiting work).face 0).held, (waiting work).missing 0 (readRanges 0 i) = none)
      ∧ move1 ∈ ((waiting expecting).face 0).held ∧ (waiting expecting).missing 0 (readRanges 0 move1) ≠ none
      ∧ (withTk work fun k => { k with odcDue := true }).tk.odcDue = true := by decide +kernel

/-- The message comes: its bytes landed in full for tick 100, the stall ends; a byte short, it does not (R217). -/
def landed1 (n : Nat) : Landed := ⟨key1, 0x10000, zeros n, [], true, zeros n, []⟩
def withLanded (s : State) (l : List Landed) : State := { s with mem := { s.mem with landing := l } }
theorem test_message_ends_stall :
    nextIs (exec (.faceStallEnd 0) (withLanded (waiting expecting) [landed1 64])) (fun t => (t.face 0).stall.isNone) = true
      ∧ nextIs (exec (.faceStallEnd 0) (withLanded (waiting expecting) [landed1 63])) (fun t => (t.face 0).stall.isSome) = true := by
  decide +kernel

/-! ### Memory -/

theorem witness_memory :
    Memory.wf (poke up 0x10000 [1, 0, 3]).mem = true ∧ 0x10000 ∈ ({ up.mem with poison := [0x10000] } : Mem).poison
      ∧ (poke up 0x10000 [1, 0, 3]).mem.bytes 0xFFFF 5 = [0, 1, 0, 3, 0] := by decide +kernel

/-- A whole write clears a granule's poison, and a part of one does not (R248). -/
theorem test_poison :
    granSize (0x10000 : Nat) = 64 ∧ (({ up.mem with poison := [0x10000] } : Mem).writeBytes 0x10000 (zeros 64) []).poison = []
      ∧ (({ up.mem with poison := [0x10000] } : Mem).writeBytes 0x10000 (zeros 63) []).poison = [0x10000] := by decide +kernel

def groupA : GroupDesc := ⟨0x30000, 2, .posit32, 2, BitVec.ofNat 64 (pileBase + 0x11000000), 64, 4, 2⟩
def groupQ : GroupDesc := ⟨0x30000, 1, .quire128, 2, 0, 0, 4, 2⟩
def contrib (g : GroupDesc) (rank tag : Nat) : Contribution := ⟨g, 99, rank, BitVec.ofNat 16 tag, le 4 0x40000000 ++ le 4 0x4C000000, []⟩
def opened (g : GroupDesc) (n : Nat) : AddGroup := ⟨g, 99, (List.range n).map fun i => contrib g 0 i, 0, false⟩
def withGroup (s : State) (g : AddGroup) : State := { s with mem := { s.mem with groups := [g] } }
def fastRun : State := { work with cfg := { work.cfg with fast := true } }

/-- A group and a bucket under way that the transfer of `mv0` does not touch. -/
def bystanders : State :=
  { withGroup work (opened groupA 1) with coll := { work.coll with buckets := [{ bucket0 with state := .running }, { bucket0 with broken := true }] } }

theorem witness_movers :
    expecting.wf = true ∧ expecting.issues 0 = true ∧ moverRule expecting 0 mv0 = none
      ∧ expecting.missing 0 [(mv0.src.toNat, mv0.bytes)] = some (.message key1)
      ∧ (let s := withGroup (withTk work fun k => { k with tickCount := 103 }) (opened groupA 1);
        let o := { mv0 with src := 0x30000 };
        s.wf = true ∧ s.issues 0 = true ∧ moverRule s 0 o = none ∧ s.missing 0 [(o.src.toNat, o.bytes)] = some (.group 0x30000))
      ∧ bystanders.wf = true ∧ bystanders.issues 0 = true ∧ moverRule bystanders 0 mv0 = none
      ∧ bystanders.missing 0 [(mv0.src.toNat, mv0.bytes)] = none ∧ (overlap mv0.src.toNat mv0.dst.toNat mv0.bytes).2 = 0
      ∧ bystanders.openTargets ≠ [] ∧ (∀ r ∈ bystanders.openTargets, meets mv0.dst.toNat mv0.bytes r.1 r.2 = false)
      ∧ (∀ b ∈ bystanders.coll.buckets, b.broken = true
        ∨ (b.spoils true mv0.dst.toNat mv0.bytes = false ∧ b.spoils false mv0.src.toNat mv0.bytes = false)) := by decide +kernel

def sendA (bytes : Nat) : SendOp := ⟨0, 0x10000, 0x20000, bytes, 4, 9⟩
def atomicA : AtomicOp := ⟨0, groupA, 9, vec 0x1000 3 2⟩

theorem witness_sends :
    (bystanders.wf = true ∧ bystanders.issues 0 = true ∧ fabricSendRule bystanders 0 (sendA 1) = none
      ∧ fabricSendRule bystanders 0 (sendA 4065) = none ∧ bystanders.missing 0 [((sendA 4065).src.toNat, (sendA 4065).bytes)] = none
      ∧ (∀ b ∈ bystanders.coll.buckets, b.broken = true ∨ b.spoils false (sendA 4065).src.toNat (sendA 4065).bytes = false))
      ∧ atomicRule work 0 atomicA = none ∧ work.missing 0 (readRanges 0 (.atomicAdd 0 atomicA)) = none
      ∧ (work.contribution 0 atomicA).data ≠ [] := by decide +kernel

/-- A send of 4,065 bytes is cut into two packets, the second of one byte (R217, R274); a Face one tick behind names the tick of its
program (R222). -/
theorem test_send_is_cut :
    (work.sendPackets 0 (sendA 4065) []).map (fun p => (p.addr.toNat, p.len.toNat, p.tick.toNat)) = [(0x20000, 4064, 100), (0x20FE0, 1, 100)]
      ∧ ((busy 1 false).sendPackets 0 (sendA 1) []).map (fun p => (p.addr.toNat, p.len.toNat, p.tick.toNat)) = [(0x20000, 1, 99)] := by
  decide +kernel

def pktTo (cls : Nat) (kind : Byte) (tick : Nat) (addr : Nat) (body : List Byte) : Packet :=
  { rtlVer := 0x20, cls := BitVec.ofNat 2 cls, bcast := false, sroute := false, rsvd := false, pit := 1, dst := 0, src := 3, kind := kind
    vis := 2, hops := 1, tag := 4, len := BitVec.ofNat 16 body.length, tick := BitVec.ofNat 64 tick, addr := BitVec.ofNat 64 addr
    body := body, marks := [], vc := false, load := none }
/-- A packet that carries what the manual gives no layout for. -/
def pktWith (cls : Nat) (kind : Byte) (l : Load) : Packet := { pktTo cls kind 99 0 (zeros 16) with load := some l }
def delivered (s : State) (k : Packet) : State := { s with fab := { s.fab with delivered := [k] } }
def ingress (s : State) (k : Packet) : State := { s with fab := { s.fab with ingress := [k] } }
def own (s : State) (k : Packet) : State := { s with fab := { s.fab with own := [k] } }

/-- A landing write for tick 101, and one whose visibility tick 100 has come; one of class 1, and one for a CSR address. -/
theorem witness_landing_writes :
    ([99, 98].all fun t =>
      let k := pktTo 2 0x01 t 0x20000 [1, 2, 3]
      let s := delivered work k
      k.cls != 1 && k.kind == 0x01 && s.fab.delivered.contains k && s.mem.rangeOk k.addr.toNat k.body.length
        && !touchesFixed s.strm.slotK.toNat k.addr.toNat k.body.length
        && (decide ((k.tick + k.vis.setWidth 64).toNat ≤ s.tk.tickCount.toNat) == (t == 98))) = true
      ∧ (pktTo 1 0x01 99 0x20000 [1]).cls = 1 ∧ work.mem.rangeOk (pktTo 2 0x01 99 (2 ^ 60) [1]).addr.toNat 1 = false := by decide +kernel

/-- The record of `cellRec` in two class-1 packets, to memory, to a poisoned place and to no place, and with its second packet missing. -/
def piece1of2 (a : Nat) : Packet := { pktTo 1 0x01 90 a (cellRec.take 96) with vis := 1 }
def piece2of2 (a : Nat) : Packet := { pktTo 1 0x01 90 (a + 96) (cellRec.drop 96) with vis := 1 }
def landing (s : State) (a : Nat) : State := { s with fab := { s.fab with delivered := [piece1of2 a, piece2of2 a] } }
theorem witness_record_landings :
    ([0x10000, 2 ^ 60].all fun a => (landing up a).recordPieces 3 up.pit.id 4 (BitVec.ofNat 64 a) 160 == some [piece1of2 a, piece2of2 a]) = true
      ∧ (delivered up (piece1of2 0x10000)).recordPieces 3 up.pit.id 4 0x10000 160 = none
      ∧ up.mem.cmdRangeOk 0x10000 160 = true ∧ up.mem.cmdRangeOk (2 ^ 60) 160 = false
      ∧ touchesFixed up.strm.slotK.toNat 0x10000 160 = false ∧ up.mem.markedIn 0x10000 160 = []
      ∧ ({ up.mem with poison := [0x10000] } : Mem).markedIn 0x10000 160 ≠ [] := by decide +kernel

/-- A Face one tick behind, before and after a message for tick 100 has been shown, and a message that meets nothing under way. -/
def behind : State := { busy 1 false with mem := (poke work 0x20000 [9, 9]).mem }
def ahead : State := withLanded behind [⟨key1, 0x20000, [9, 9], [], true, [1, 2], []⟩]
theorem witness_landing_views :
    bystanders.wf = true ∧ (∀ r ∈ bystanders.openTargets, meets 0x10000 64 r.1 r.2 = false)
      ∧ (∀ b ∈ bystanders.coll.buckets, b.broken = true ∨ b.spoils true 0x10000 64 = false)
      ∧ ((busy 0 false).face 0).slip = 0 ∧ (behind.face 0).slip ≠ 0 ∧ behind.mem.ahead (behind.progTick 0) = []
      ∧ (ahead.face 0).slip ≠ 0 ∧ ahead.wf = true ∧ Memory.wf ((ahead.view 0).moveNow 0 mv0).mem = true
      ∧ ahead.mem.ahead (ahead.progTick 0) ≠ [] := by decide +kernel

/-- The program of tick 99 reads what stood before the message, and its write beside it leaves the message in place (R217, R222). -/
theorem test_landing_view :
    (ahead.view 0).mem.bytes 0x20000 2 = [1, 2]
      ∧ (ahead.atView 0 fun s => { s with mem := s.mem.writeBytes 0x20000 [5, 6, 7] [] }).mem.bytes 0x20000 3 = [9, 9, 7] := by decide +kernel

theorem witness_add_groups :
    (let c := contrib groupA 0 1;
      let k := pktWith 2 0x02 (.add c);
      k.kind = 0x02 ∧ (delivered work k).fab.delivered.contains k = true ∧ k.load = some (.add c))
      ∧ work.running = true ∧ work.tk.haltTaken = false ∧ work.tk.launchAt.toNat ≤ (contrib groupA 0 1).opened.toNat
      ∧ ((withGroup work (opened groupA 1)).mem.groups.find? fun x => x.takes (contrib groupA 0 1)) = some (opened groupA 1)
      ∧ ((withGroup work (opened groupA 2)).mem.groups.find? fun x => x.takes (contrib groupA 0 1)) = some (opened groupA 2)
      ∧ (opened groupA 1).got.length < groupA.n ∧ groupA.n ≤ (opened groupA 2).got.length
      ∧ work.stages groupA = true ∧ fastRun.stages groupA = false ∧ work.stages groupQ = false
      ∧ (∀ x ∈ work.mem.groups, x.takes (contrib groupA 0 1) = false) ∧ addRounded groupA.fmt = true ∧ addRounded groupQ.fmt = false
      ∧ ([groupA, groupQ].all fun d => ((withGroup work (opened d 2)).mem.groups.find? fun g =>
          g.desc.target == 0x30000 && !g.done && decide (g.desc.n ≤ g.got.length)) == some (opened d 2)) = true := by decide +kernel

/-- Two contributions of 1 and 3 to a staged group of posit32 sums: 2 and 6 (R251, R255). -/
theorem test_add_group_sums :
    nextIs (exec (.addGroupComplete 0x30000) (withGroup work (opened groupA 2)))
      (fun t => t.mem.nat 0x30000 4 == positRound 32 2 && t.mem.nat 0x30004 4 == positRound 32 6) = true := by decide +kernel

def memJob (first : Option Nat) : State := { up with mem := { up.mem with jobs := [⟨tkt1, first, 1⟩] } }
def loadJob0 : LoadJob := ⟨tkt1, [0, 1], 2, ⟨zeros 64, []⟩, true, false⟩
def withLoad : State := { withFace up id with loads := [loadJob0], faces := lmod (fun x => { x with state := .ready }) up.faces 1 }

theorem witness_upkeep :
    (up.mem.region (gran (0x10000 : BitVec 64).toNat)).isMem = true ∧ up.mem.poison.contains (gran (0x10000 : BitVec 64).toNat) = false
      ∧ (up.mem.region (gran (2 ^ 60 : BitVec 64).toNat)).isMem = false
      ∧ 16 < ({ up.mem with stackErrs := [17] } : Mem).stackErrs.getD 0 0 ∧ ({ up.mem with stackErrs := [16] } : Mem).stackErrs.getD 0 0 ≤ 16
      ∧ ([none, some 0x10000].all fun a => ((memJob a).mem.jobs.find? fun j => j.tkt.key == tkt1.key) == some ⟨tkt1, a, 1⟩) = true
      ∧ (withLoad.loads.find? fun j => j.tkt.key == tkt1.key) = some loadJob0
      ∧ (loadJob0.faces.filter fun f => (0 : BitVec 96).getLsbD f.val || !(withLoad.face f).state.inService) = []
      ∧ (loadJob0.faces.filter fun f => (2 : BitVec 96).getLsbD f.val || !(withLoad.face f).state.inService) = [1] := by decide +kernel

/-! ### Instructions of the Faces: the statements with premises of their own -/

def arith (row : FaceId → Vec2 → Instr) (o : Vec2) (a b : Stream) (n : Nat) : Bool :=
  let ya := streamAddrs 0 o.y.st.desc
  goes work (row 0 o) && work.wf && ((List.range ya.length).all fun i => (List.range (n / 8)).all fun k =>
      outside (ya.getD i 0 / 8 + k) (keptRanges 0 o.kept)) && o.a == .mem a && o.b == .mem b && o.cnt.isNone && !o.sr && o.y.mask.isNone
    && (StreamFmt a.desc).isPosit && (StreamFmt b.desc).isPosit && (dstFmt o.y).bits == n
    && (List.range ya.length).all fun j => (List.range j).all fun i =>
      decide (ya.getD i 0 + n ≤ ya.getD j 0 ∨ ya.getD j 0 + n ≤ ya.getD i 0)

theorem witness_arithmetic :
    (([.add, .sub, .mul, .max, .min, .div] : List (FaceId → Vec2 → Instr)).all fun row =>
      arith row { v2 2 1 4 with kept := some ⟨wr 0x6000 2 4, 2⟩ } (vec 0x1000 2 4) (vec 0x2000 2 4) 8 &&
      arith row (v2 2 1 4) (vec 0x1000 2 4) (vec 0x2000 2 4) 8 && arith row (v2 1 2 4) (vec 0x1000 1 4) (vec 0x2000 1 4) 16
        && arith row (v2 3 3 4) (vec 0x1000 3 4) (vec 0x2000 3 4) 32) = true := by decide +kernel

theorem witness_compares :
    (([.cmpEq, .cmpLt, .cmpLe] : List (FaceId → Vec2 → Instr)).all fun row => [1, 2, 3].all fun k =>
      goes work (row 0 (v2 k 15 4)) && work.wf && (v2 k 15 4).cnt.isNone && (v2 k 15 4).y.mask.isNone
        && decide (streamAddrs 0 (v2 k 15 4).y.st.desc).Nodup) = true := by decide +kernel

def pipe0 : Tile := ⟨.posit16, 1, 1, [0x4000], [], 0, 0, 0, none, 0, 0⟩

theorem witness_finished_tiles :
    (goes (withFace work fun x => { x with units := { x.units with pipe := [pipe0] } }) (.finishedTileQueued 0)
      && goes work (.finishedTileQueued 0) && goes work (.weightSwap 0) && goes work (.keeperMac 0 5)
      && decide ((0 : FaceId).val < work.faces.length)) = true ∧ (work.face 0).units.pipe = [] ∧ (up.face 0).units.loaded = false := by decide +kernel

theorem witness_unit_formulas :
    winner (fun q p => decide (p < q)) [.fin 1, .fin 3, .fin 3] 0 none = some (1, .fin 3)
      ∧ winner (fun q p => decide (q < p)) [.fin 3, .fin 1, .fin 1] 0 none = some (1, .fin 1)
      ∧ winner (fun q p => decide (p < q)) [.fin 1, .nar, .fin 3] 0 none = some (1, .nar)
      ∧ ([some (.fin 2)] : List (Option Val))[0]? = some (some (.fin 2)) ∧ some Val.nar ∈ ([some (.fin 2), some .nar] : List (Option Val))
      ∧ SgRow.real [(true, .fin 1, .fin 2)] = true ∧ SgRow.real [(true, .fin 1, .fin 2), (false, .nar, .fin 2)] = false
      ∧ (work.sgRead 0 sg1.yv sg1.dy sg1.mask sg1.cnt).1.length = 1 := by decide +kernel

/-! ### Collectives -/

def duoPit : Pit := { up.pit with sx := 1 }
def half0 (range : List (Nat × Nat)) (due : Nat) : HalfPos := { HalfPos.idle with range := range, due := due, paid := (1, 128) }
/-- A pass of two members in its first step: each half has one unit of the step to come, for which it has its cycle and its bytes. -/
def ring (due : Nat) (segs : List Segment) : Bucket :=
  { bucket0 with state := .running, pass := 1, half0 := half0 [(0, 2)] due, half1 := half0 [(2, 2)] due, segs := segs }
def duo (b : Bucket) : State := withBucket { work with pit := duoPit } b
def segA (half : Bool) (first vis : Nat) : Segment :=
  ⟨0, false, half, false, false, 0, first, 1, 1, vis, zeros (32 + 128), [], none⟩
def bothSegs (vis : Nat) : List Segment := ((List.range 4).map fun i => segA false i vis) ++ (List.range 4).map fun i => segA true i vis

theorem witness_hops :
    ([false, true].all fun h => (duo (ring 100 (bothSegs 100))).hopGoes (ring 100 (bothSegs 100)) h
        && !(duo (ring 100 (bothSegs 101))).hopGoes (ring 100 (bothSegs 101)) h
        && (let b := { ring 100 (bothSegs 100) with half0 := { half0 [(0, 2)] 100 with paid := (1, 127) }, half1 := { half0 [(2, 2)] 100 with paid := (0, 128) } };
          !(duo b).hopGoes b h)) = true
      ∧ (duo (ring 100 (bothSegs 100))).bucket 5 = some (ring 100 (bothSegs 100)) := by decide +kernel

theorem witness_pass_ends :
    (let b := { ring 100 [] with ended := some 100 };
      (duo b).bucket 5 = some b ∧ (100 : Nat) ≤ (duo b).tk.tickCount.toNat ∧ b.state.armed = true)
      ∧ ((100 : Nat) < 101 ∧ { ring 100 [] with ended := some 101 }.ended = some 101) := by decide +kernel

/-- Sixteen ticks after a step was due, one half or the other or neither is without its segments. -/
theorem witness_step_timeouts :
    (ring 84 []).state = .running ∧ duoPit.axes ≠ [] ∧ (duo (ring 84 [])).halfStalled (ring 84 []) false = true
      ∧ (let b := { ring 84 [] with half0 := half0 [(0, 2)] 85 };
        (duo b).halfStalled b false = false ∧ (duo b).halfStalled b true = true)
      ∧ (duo (ring 85 [])).halfStalled (ring 85 []) false = false ∧ (duo (ring 85 [])).halfStalled (ring 85 []) true = false := by
  decide +kernel

def unitQ : UnitVal := ⟨0, .posit32, zeros 128, []⟩
theorem witness_hop_sums : (⟨unitQ, 1, none⟩ : Incoming).unit.fmt = .posit32 ∧ bucket0.desc.quar = false := by decide +kernel

def segBody (id pass : Nat) (digest : BitVec 64) : List Byte :=
  [0x20, 0, 0, 0] ++ le 2 id ++ le 2 1 ++ le 4 pass ++ le 4 0 ++ le 8 digest.toNat ++ zeros 8 ++ zeros 128

theorem witness_segments :
    ([(1, bucket0.desc.digest, true), (2, bucket0.desc.digest, false), (1, 0, false)].all fun x =>
      let k := pktTo 2 0x05 99 0 (segBody 5 x.1 x.2.1)
      let s := delivered (duo (ring 100 [])) k
      k.kind == 0x05 && s.fab.delivered.contains k && s.bucket (BitVec.ofNat 12 (leAt k.body 4 2)) == some (ring 100 [])
        && ((ring 100 []).state.armed && leAt k.body 8 4 == (ring 100 []).pass.toNat && leAt k.body 16 8 == (ring 100 []).desc.digest.toNat)
          == x.2.2) = true
      ∧ (delivered work (pktTo 2 0x05 99 0 (segBody 5 1 0))).bucket 5 = none := by decide +kernel

/-! ### Links, packets, the timebase -/

def withPort (s : State) (g : Port → Port) : State := { s with fab := { s.fab with ports := lmod g s.fab.ports 0 } }
def inState (st : LinkSt) : State := withPort work fun x => { x with state := st }
def helloFlit : List Byte :=
  let h := [0x20, 0x20, 1] ++ zeros 57
  zeros 32 ++ h ++ le 4 (crc32c h).toNat

theorem witness_links :
    (([.down, .training, .hello, .up, .mismatch, .miswired, .failed, .disabled] : List LinkSt).all fun st =>
        (inState st).wf && ((inState st).port 0).state == st) = true
      ∧ (([.hello, .up, .mismatch, .miswired] : List LinkSt).all LinkSt.hellos) = true
      ∧ (([.down, .training, .failed, .disabled] : List LinkSt).all fun st => !st.hellos) = true
      ∧ (inState .down).pwr.main = true ∧ State.reset.pwr.main = false ∧ helloOk ((helloFlit.drop 32).take 64) = true
      ∧ helloOk (((zeros 96).drop 32).take 64) = false ∧ ((inState .up).port 0).worn = false
      ∧ ((withPort (inState .up) fun x => { x with fails := 16 }).port 0).worn = true := by decide +kernel

def flitAt (n : BitVec 12) : Flit :=
  let f := { bareFlit 0 false true true 0 (zeros 64) with seq := n }
  { f with crc := flitCrc f }
def upPort (g : Port → Port) : State := withPort work fun x => g { x with state := .up, rxSeq := 4, rxValid := true }

/-- Flits in order, repeated, ahead, and at the two ends of what counts as a repeat; slots with and without a replay and a full buffer. -/
theorem witness_flits :
    ((upPort id).port 0).state.hellos = true ∧ ((upPort id).port 0).nextSeq = 5 ∧ (flitAt 5).crc = flitCrc (flitAt 5)
      ∧ (flitAt 5).seq = ((upPort id).port 0).nextSeq ∧ { flitAt 5 with crc := 0 }.crc ≠ flitCrc { flitAt 5 with crc := 0 }
      ∧ 2048 ≤ ((flitAt 4).seq - 5).toNat ∧ 2048 ≤ ((flitAt 2053).seq - 5).toNat ∧ ((flitAt 2052).seq - 5).toNat < 2048
      ∧ ((flitAt 6).seq - 5).toNat < 2048 ∧ 15 ≤ ((upPort fun x => { x with fails := 15 }).port 0).fails
      ∧ ((upPort fun x => { x with fails := 14 }).port 0).fails < 15 ∧ ((upPort id).port 0).naks < 16
      ∧ ((upPort fun x => { x with resend := [flitAt 1] }).port 0).resend = [flitAt 1] ∧ ((upPort id).port 0).resend = []
      ∧ ((upPort id).port 0).replay.length < 512
      ∧ 512 ≤ ((upPort fun x => { x with replay := List.replicate 512 (flitAt 1) }).port 0).replay.length
      ∧ (upPort id).slotClass ((upPort id).port 0) 1 = none := by decide +kernel

/-- Every destination goes by port `e` of the table, and port 0 is UP. -/
def routed (e : Nat) : State :=
  { inState .up with fab := { (inState .up).fab with route := some ⟨1, 0, List.replicate 8 (BitVec.ofNat 8 (8 * e + e)), []⟩ } }

/-- R272: one hop is left at 61, none at 62 and 63. -/
theorem test_hops :
    ([(61, 0), (62, 1), (63, 1)].all fun x =>
      let k := { pktTo 2 0x01 99 0x20000 [1] with dst := 3, hops := BitVec.ofNat 6 x.1 };
      nextIs (exec (.packetRoute (some 1) k) (ingress (routed 0) k)) fun t =>
        t.fab.hopDrop.toNat == x.2 && ((t.port 0).q2.isEmpty == (x.2 == 1))) = true := by decide +kernel

theorem witness_packets :
    (let k := { pktTo 2 0x01 99 0x20000 [1] with rtlVer := 0x21 };
      (ingress work k).fab.ingress.contains k = true ∧ malformed k = true)
      ∧ (let k := { pktTo 2 0x01 99 0x20000 [1] with pit := 2 };
        (ingress work k).fab.ingress.contains k = true ∧ malformed k = false ∧ k.cls ≠ 0 ∧ k.pit ≠ work.pit.id)
      ∧ (let k := { pktTo 2 0x01 99 0x20000 [1] with hops := 62 };
        malformed k = false ∧ k.pit = work.pit.id ∧ k.hops.toNat < 63 ∧ k.cls ≠ 0 ∧ uniPort (work.uniEntry k.dst) (k.cls != 0) = 6
          ∧ heldKind k.kind = true)
      ∧ ([3, 0, 7].all fun e =>
        let s := routed e;
        let k := { pktTo 2 0x01 99 0x20000 [1] with dst := 3 };
        uniPort (s.uniEntry k.dst) (k.cls != 0) == e && (s.port 0).state == .up && (s.port 3).state == .down) = true
      ∧ ({ pktTo 2 0x01 99 0x20000 [1] with hops := 62 } : Packet).hops.toNat = 62 ∧ 63 ≤ ({ pktTo 2 0x01 99 0x20000 [1] with hops := 63 } : Packet).hops.toNat
      ∧ (own work (pktTo 2 0x01 99 0x20000 [1])).fab.own.contains (pktTo 2 0x01 99 0x20000 [1]) = true
      ∧ (let k := pktTo 1 0x03 99 0 (zeros 64);
        (delivered work k).fab.delivered.contains k = true ∧ k.kind = 0x03)
      ∧ landingFailure (zeros 16) = none ∧ landingFailure (le 2 4 ++ le 2 0 ++ zeros 12) = none
      ∧ (let k := pktTo 1 0x14 99 0 (zeros 16);
        (delivered work k).fab.delivered.contains k = true ∧ k.kind = 0x14) := by decide +kernel

/-- A reply that a record was refused, for an export that waits for it. -/
theorem witness_export_replies :
    let x : Export := { export0 (some []) with remote := true, faddr := 3 };
    let e : StreamEnt := exporting x;
    let k := pktTo 1 0x04 99 0 (le 2 7 ++ le 2 Status.badParam.code ++ zeros 12);
    (delivered (withEnt e) k).fab.delivered.contains k = true ∧ landingFailure k.body = some (.badParam, [])
      ∧ (delivered (withEnt e) k).exportTo k.src (BitVec.ofNat 16 (leAt k.body 0 2)) = some (e, x) := by decide +kernel

def note (src : FAddr) (target : Nat) : HaltNotice := ⟨src, 1, BitVec.ofNat 64 target, false⟩
def announce (src : FAddr) (target : Nat) : ExtAnn := ⟨src, 5, 1, BitVec.ofNat 64 target, 3, false⟩
def digestMsg : TwinMsg := ⟨99, .module 7⟩
def twinned : State := { work with twin := { work.twin with paired := true, partner := 3, partnerPit := 2 } }

/-- A halt notice and an extension of another member, of this module itself and of another Pit, in time and late; a power event of another
member and its own; and a twin's digest from the partner. -/
theorem witness_pit_messages :
    ([3, 0].all fun src => [101, 100].all fun target =>
      let h := pktWith 0 0x10 (.halt (note src target));
      let e := pktWith 0 0x11 (.ext (announce src target));
      (delivered work h).fab.delivered.contains h && (delivered work e).fab.delivered.contains e && work.ownPit h.pit && work.ownPit e.pit
        && (decide (work.tk.tickCount.toNat < (note src target).target.toNat) == (target == 101))
        && ((note src target).src == work.fab.faddr) == (src == 0) && (announce src target).relay == (note src target).relay) = true
      ∧ work.twin.paired = false ∧ work.ownPit { pktWith 0 0x10 (.halt (note 3 101)) with pit := 2 }.pit = false
      ∧ (let k := pktTo 0 0x13 99 0 [];
        (delivered work k).fab.delivered.contains k = true ∧ (delivered work k).powerEvent k.src k.pit = some k ∧ k.src ≠ work.fab.faddr
          ∧ (delivered work { k with src := 0 }).powerEvent 0 k.pit = some { k with src := 0 } ∧ { k with src := 0 }.src = work.fab.faddr)
      ∧ (let k := pktWith 0 0x12 (.twin digestMsg);
        let s := delivered twinned { k with pit := 2 };
        s.fab.delivered.contains { k with pit := 2 } = true ∧ k.load = some (.twin digestMsg) ∧ digestMsg.body = .module 7
          ∧ s.twin.paired = true ∧ s.ownPit 2 = true ∧ k.src = s.twin.partner) := by decide +kernel

def locked (on master : Bool) : State := { inState .up with fab := { (inState .up).fab with locked := on, master := master } }
def mark0 : Marker := ⟨50, 0, 0, 2562, true, 1, 4⟩

theorem witness_timebase :
    (locked true false).wf = true ∧ (locked true false).pwr.hub = true ∧ ((locked true false).port 0).state.hellos = true
      ∧ 1280 < (markerOffset ((locked true false).port 0) mark0).natAbs
      ∧ (locked false true).fab.master = true ∧ (locked false false).bestParent = none
      ∧ (withPort (locked false false) fun x => { x with nbrTime := true, nbrDepth := 1, nbrMaster := 4 }).bestParent = some 0 := by
  decide +kernel

/-! ### Power, heat, leaks -/

def withPwr (s : State) (g : Power → Power) : State := { s with pwr := g s.pwr }
def standby : State := withPwr State.reset fun p => { p with weighbridge := true }

/-- 0x42400000 is 48, 0x41400000 is 12, 0x41F00000 is 30 and 0x42240000 is 41 in binary32. -/
theorem witness_bring_up :
    standby.mayEnable = true ∧ within 0x42400000 40 60 = true ∧ within 0x41400000 (46 / 10) 1000000 = true ∧ above 0x41F00000 40 = false
      ∧ above 0x42240000 40 = true ∧ within 0 40 60 = false ∧ within 0 (46 / 10) 1000000 = false ∧ up.mayEnable = false
      ∧ (withPwr standby fun p => { p with ramping := true }).pwr.ramping = true ∧ standby.pwr.ramping = false
      ∧ (withPwr standby fun p => { p with main := true }).pwr.hub = false ∧ up.pwr.hub = true ∧ standby.pwr.main = false
      ∧ up.wf = true ∧ up.pwr.dies ≠ 0 ∧ standby.pwr.dies = 0
      ∧ (let s := withPwr up fun p => { p with trained := 0x7FFF };
        s.pwr.dies ≠ 0 ∧ s.pwr.trained.getLsbD 15 = false ∧ s.pwr.tries.getD 15 0 < 2)
      ∧ (withPwr up fun p => { p with perstN := false }).pwr.perstN = false
      ∧ (let s := withFace (withJob (job 0)) fun x => { x with state := .testing, prior := .testing };
        s.wf = true ∧ (s.face 0).state = .testing ∧ s.underBist 0 = true ∧ (s.face 0).prior = .testing)
      ∧ (let s := withFace up fun x => { x with state := .testing };
        (s.face 0).state = .testing ∧ s.underBist 0 = false)
      ∧ (up.face 0).state.inService = true ∧ (up.face 1).state.inService = false := by decide +kernel

/-- The bounds of the inputs: 40 V and 60 V, and just below 4.6 V of standby (R338). -/
theorem test_input_bounds :
    within 0x42200000 40 60 = true ∧ within 0x42700000 40 60 = true ∧ within 0x421FFFFF 40 60 = false ∧ within 0x42700001 40 60 = false
      ∧ within 0x40933333 (46 / 10) 1000000 = false ∧ within 0x40933334 (46 / 10) 1000000 = true := by decide +kernel

theorem witness_power_losses :
    up.pwr.main = true ∧ up.pwr.sag = false ∧ (withPwr up fun p => { p with sag := true }).pwr.sag = true ∧ work.canHalt = true
      ∧ (duo (ring 100 [])).pit.id ≠ 0 ∧ 1 < (duo (ring 100 [])).pitSize ∧ up.anyPower = true ∧ standby.anyPower = false
      ∧ (withPwr up fun p => { p with stopStandby := true }).pwr.stopStandby = true ∧ up.pwr.stopStandby = false
      ∧ (standby.mayRestart && suppliesOk standby.pwr.block.vStby (sensorOf standby.pwr.block 0)) = false
      ∧ (let s := withPwr standby fun p => { p with sag := true, switchOpen := true, block := { p.block with vStby := 0x41400000 } };
        s.anyPower = false ∧ (s.mayRestart && suppliesOk s.pwr.block.vStby (sensorOf s.pwr.block 0)) = true)
      ∧ (withPwr standby fun p => { p with ramping := true }).anyPower = true
      ∧ up.pwr.switchOpen = false ∧ (withPwr up fun p => { p with switchOpen := true }).pwr.switchOpen = true
      ∧ up.pwr.weighbridge = true ∧ up.errs.log.length = Nat.min 4096 (up.errs.log.length + up.errs.raised.length) := by decide +kernel

def warm (n : Nat) (v : BitVec 32) : Readings := { Readings.zero with temps := lmod (fun _ => v) Readings.zero.temps n }

/-- Sensor 0 at 46 °C is past its stop limit of 45, and at 45 °C it is not (R379). -/
theorem witness_heat :
    up.pwr.weighbridge = true ∧ pastStop (warm 0 0x42380000) 0 = true ∧ pastStop (warm 0 0x42340000) 0 = false
      ∧ ((List.range 30).all fun n => !pastStop Readings.zero n && !pastHalt Readings.zero n 0) = true
      ∧ ({ Readings.zero with rope := true } : Readings).rope = true ∧ ({ Readings.zero with leakIn := true } : Readings).leakIn = true
      ∧ up.anyPower = true ∧ up.quiet = true ∧ work.quiet = false ∧ State.reset.pwr.weighbridge = false
      ∧ pastHalt { up.pwr.block with temps := up.pwr.block.temps.set 0 0x42380000 } 0 0 = true ∧ up.pwr.latched.contains 0 = false
      ∧ (withPwr up fun p => { p with latched := [0] }).pwr.latched.contains 0 = true ∧ work.canHalt = true
      ∧ (withPwr up fun p => { p with stopThermal := true }).anyPower = true ∧ up.pwr.leakOwn = false ∧ up.pwr.leakExt = false
      ∧ (withPwr up fun p => { p with leakOwn := true, stopLeak := true }).pwr.stopLeak = true := by decide +kernel

/-! ### The management Ethernet, the chain and the host -/

def datagram (piece offset : Nat) : List Byte := le 4 7 ++ le 4 piece ++ le 4 offset ++ zeros 4 ++ zeros 1024
def fenced : State := { up with host := { up.host with waiting := [(0x0302, { pkHalt with path := .mgmt 5 })] } }
def readyFor (s : State) (bytes : List Byte) : Bool :=
  let r := parsePacket (.mgmt 5) bytes
  s.mayCheck r && !s.host.waiting.any fun v => samePath v.2.path r.pk.path

theorem witness_management :
    State.reset.pwr.weighbridge = false ∧ up.pwr.weighbridge = true ∧ standby.pwr.derrick = false ∧ readyFor up (zeros 32) = true
      ∧ up.pwr.derrick = true ∧ readyFor fenced (zeros 32) = false
      ∧ (datagram 1 64512).length = 1040 ∧ leAt (datagram 1 64512) 8 4 % 1024 = 0 ∧ leAt (datagram 1 64512) 8 4 < pieceLen
      ∧ zeroAt (datagram 1 64512) 12 4 = true ∧ leAt (datagram 1 1) 8 4 % 1024 ≠ 0 ∧ pieceLen ≤ leAt (datagram 1 65536) 8 4 := by
  decide +kernel

def withQueue (s : State) (g : Queue → Queue) : State := s.updQueue 0 g

/-- The queue of `up` has 16 slots: index 15 is its last, and 16 is an error (R316). -/
theorem witness_doorbells :
    (up.queue 0).sqSize = 16 ∧ (up.queue 0).cqSize = 16 ∧ (16 : Nat) ≤ (16 : BitVec 32).toNat ∧ (15 : BitVec 32).toNat < 16
      ∧ (up.queue 0).held = [] ∧ up.wf = true ∧ standby.pwr.derrick = false := by decide +kernel

/-- An access of 4 or of 8 bytes has the form of R314 where it is aligned; the standby registers are reached with the hub die off, as
READY_MAP at 0x0028 is, and TICK_CFG at 0x0058 is not. -/
theorem witness_csr_accesses :
    csrForm 0x58 8 = true ∧ csrForm 0x5C 4 = true ∧ csrForm 0x5C 8 = false ∧ csrForm 0x58 2 = false
      ∧ up.pwr.hub = true ∧ standby.pwr.hub = false ∧ standby.pwr.weighbridge = true ∧ State.reset.pwr.weighbridge = false
      ∧ hubRegisters 0x28 1 = false ∧ hubRegisters 0x58 1 = true := by decide +kernel

/-- The management chain reads a register of the standby domain while the dies are off, and answers NOT_READY for another (R17, R328);
an 8-byte read over BAR0 brings all of TICK_CFG at once, a 4-byte one its upper half. -/
theorem test_csr_reads :
    nextIs (exec (.csrWrite .chain 0x58 4 none) standby) (fun t => t.out == [.csrNotReady]) = true
      ∧ nextIs (exec (.csrWrite .chain 0x28 8 none) standby) (fun t => t.out == [.csrData .chain (leBytes 8 (standby.csr64 0x28))]) = true
      ∧ nextIs (exec (.csrWrite .bar0 0x58 8 none) up) (fun t => t.out == [.csrData .bar0 (leBytes 8 0x20028028)]) = true
      ∧ nextIs (exec (.csrWrite .bar0 0xA4 4 none) up) (fun t => t.out == [.csrData .bar0 (leBytes 4 (up.csr64 0xA0 / 2 ^ 32))]) = true := by
  decide +kernel

/-- The last byte of the window, and one past it. -/
theorem witness_window :
    (let a := up.cfg.hostWin.toNat * gib + (gib - 1);
      (gib - 1) + 1 ≤ gib ∧ up.mem.rangeOk a 1 = true ∧ ¬((gib - 1) + 2 ≤ gib))
      ∧ (let a := bystanders.cfg.hostWin.toNat * gib + 0x10000;
        bystanders.mem.rangeOk a 64 = true ∧ Memory.wf bystanders.mem = true ∧ (∀ r ∈ bystanders.openTargets, meets a 64 r.1 r.2 = false)
          ∧ (∀ k ∈ bystanders.coll.buckets, k.broken = true ∨ k.spoils true a 64 = false) ∧ bystanders.inUse a 64 = []
          ∧ bystanders.mem.markedIn a 64 = [] ∧ ({ up.mem with poison := [0x10000] } : Mem).markedIn a 64 ≠ [])
      ∧ ({ up with cfg := { up.cfg with hostWin := 0x7FF } } : State).mem.rangeOk (0x7FF * gib) 1 = false := by decide +kernel

/-! ### Fatal records -/

theorem witness_fatal_records :
    errClass 0x0402 = 3 ∧ errClass 0x0405 = 3 ∧ errClass 0x0408 = 3 ∧ errClass 0x0409 = 3 ∧ errClass 0x0301 ≠ 3 ∧ work.canHalt = true
      ∧ up.canHalt = false ∧ work.tk.run = .running := by decide +kernel

/-! ### Worked values of the manual -/

/-- The header 0x0210_E200 of chapter 2's example. -/
theorem test_block_header : BpHeader.ofNat 0x0210E200 = ⟨2, 0, 2, 3, 17, 0⟩ := by decide +kernel

/-- Chapter 11's Face F53 and die D4 (R238), and chapter 9's handle 0x6151 (R186). -/
theorem test_places :
    up.mem.region 0x0101A8000000 = .scratchpad 53 0 ∧ up.mem.region 0x010480000000 = .stockpile 4 0
      ∧ { ent0 with handle := 0x6151 }.die = 3 ∧ { ent0 with handle := 0x6151 }.slot = 337 := by decide +kernel

def spPoke (s : State) (x : Nat) (b : List Byte) : State := poke s (spAddr 0 x) b

/-- Chapter 3's cancellation: of the three products 2^20, 2^-10 and -2^20 one bit of the quire remains. -/
def cancelRow : State :=
  withFace (spPoke work 0x1000 (le 2 0x7400 ++ le 2 0x1C00 ++ le 2 0x8C00)) fun x =>
    { x with units := { x.units with active := { x.units.active with cells := [(0, 0x7400), (128, 0x1C00), (256, 0x7400)] } } }
theorem test_bench_cancellation :
    nextIs (exec (.benchForwardRead 0 { rd0 with act := vec 0x1000 2 3 }) cancelRow)
      (fun t => (sget Quire.zero (t.face 0).units.setA.cells 0).q == 2 ^ 102) = true := by decide +kernel

def drained (q : Int) (o : DrainOp) : Result :=
  exec (.drain 0 o) (withFace work fun x => { x with units := { x.units with setA := ⟨[(0, { Quire.zero with q := q })], [], none⟩ } })
def firstOut (r : Result) (v : Nat) : Bool := nextIs r fun t => t.faces.any fun x => x.units.pipe.any fun tl => tl.elems.head? == some v

/-- That quire drains to posit16 0x0C00; the INT8 sum 2^32 drains to INT32 0x7FFF_FFFF and to posit16 0x7FC0 (R69). -/
theorem test_drains :
    firstOut (drained (2 ^ 102) { dr0 with ofmt := 2 }) 0x0C00 = true
      ∧ firstOut (drained (2 ^ 32) { dr0 with pair := .int8, ofmt := 6, nPair := .int8 }) 0x7FFFFFFF = true
      ∧ firstOut (drained (2 ^ 32) { dr0 with pair := .int8, ofmt := 2, nPair := .int8 }) 0x7FC0 = true := by decide +kernel

/-- Chapter 5's BP8 block with one outlier: its header and first elements, and its spall slot. -/
def outlier : State :=
  spPoke (withFace work (withProg { prog0 with spalls := [⟨0x8000, 0x4000 - 180, 32, 36, 3, false, 2, 0⟩] })) 0x1000 (le 2 0x3800 ++ le 2 0xB400 ++ le 2 0x3A00 ++ zeros 8 ++ le 2 0x69DC ++ zeros 48)
def spall5 : SpallDesc := ⟨0x8000, 0x4000 - 180, 32, 36, 3, false, 2, 0⟩
def outlierOp : ConvertOp :=
  { conv0 with a := rd 0x1000 13 32, y := ⟨⟨{ (vec 0x4000 4 1).desc with spallId := 1 }, some spall5⟩, none⟩, enc := ⟨false, 0x8A⟩ }
theorem test_convert_outlier :
    nextIs (exec (.convert 0 outlierOp) outlier) (fun t =>
      t.mem.bytes (spAddr 0 0x4000) 12 == [0x00, 0xC0, 0x09, 0xFD, 0x50, 0xB8, 0x54, 0, 0, 0, 0, 0]
        && t.mem.bytes (spAddr 0 0x8000) 16 == [0xDC, 0x69, 0, 0, 0x0D, 0, 7, 0, 5, 0, 0, 0, 0, 0, 0, 0]) = true
      ∧ nextIs (exec (.convert 0 { outlierOp with enc := ⟨false, 0⟩ }) outlier) (fun t =>
      t.mem.bytes (spAddr 0 0x4000) 12 == [0, 0, 0, 0x09, 0x0C, 0xF6, 0x0D, 0, 0, 0, 0, 0x54]) = true := by decide +kernel

/-- Chapter 5's INT8 row of eight values: the integers, the row's sum, and the product 10,001.24 by INT_FINISH. -/
def intRow : State :=
  spPoke (withFace work (withProg { prog0 with spalls := [rowList 0x4000 8 1] })) 0x1000 (le 4 0x3F000000 ++ le 4 0xBFA00000 ++ le 4 0x3E000000 ++ le 4 0x3F600000 ++ le 4 0x44FA0000 ++ le 4 0xBF200000 ++ zeros 4
    ++ le 4 0x3FC00000)
def intRowOp : QuantOp := ⟨rd 0x1000 12 8, rowDst 8 (rowList 0x4000 8 1), 0x5000, false, 0x8A, none, ⟨0, false⟩⟩
theorem test_quant_row :
    nextIs (exec (.quant 0 intRowOp) intRow) (fun t =>
      t.mem.bytes (spAddr 0 0x4000) 8 == [42, -106, 11, 74, 0, -53, 0, 127]
        && t.mem.nat (spAddr 0 0x5004) 4 == 95 && t.mem.nat (spAddr 0 0x8000) 4 == 0x44FA0000) = true := by decide +kernel

/-- Chapter 8's scan with a reset mark at step 2. -/
def scanOp (n : Nat) : GsScanOp :=
  ⟨vec 0x1000 3 n, vec 0x1100 3 n, vec 0x1200 3 n, vec 0x1300 3 n, wr 0x4000 3 n, n, 1, 1, 0x6000, 0, true, some 0x7000, 0, none, 0x5000, 1⟩
def p32 (q : Rat) : List Byte := le 4 (positRound 32 q)
def scanState (a u : List Rat) (c : Rat) (marks : Nat) : State :=
  let one := (u.map fun _ => p32 1).flatten
  spPoke (spPoke (spPoke (spPoke (spPoke (spPoke work 0x1000 (a.map p32).flatten) 0x1100 (u.map p32).flatten) 0x1200 one) 0x1300 one)
    0x6000 (le 32 marks)) 0x7000 (p32 c)
def scanOut (a u : List Rat) (c : Rat) (marks : Nat) (ys : List Nat) : Bool :=
  nextIs (exec (.gsScan 0 (scanOp a.length)) (scanState a u c marks)) fun t =>
    (List.range ys.length).map (fun i => t.mem.nat (spAddr 0 (0x4000 + 4 * i)) 4) == ys
theorem test_scan_reset :
    scanOut [1 / 2, 1 / 2, 1 / 2, 1 / 2] [1, 2, 3, 4] 5 4 ([7 / 2, 15 / 4, 3, 11 / 2].map (positRound 32)) = true := by decide +kernel

/-- Chapter 8's decay: two steps in one chunk end one unit in the last place above two chunks of one step. -/
theorem test_scan_chunk_length :
    scanOut [1 + 1 / 2 ^ 14 + 1 / 2 ^ 27, 1 + 1 / 2 ^ 14 + 1 / 2 ^ 27] [1, 0] 1 0 [0x48001000, 0x48003002] = true
      ∧ scanOut [1 + 1 / 2 ^ 14 + 1 / 2 ^ 27] [0] (2 + 1 / 2 ^ 14) 0 [0x48003001] = true := by decide +kernel

end Sys2Proof.Tests
end

section
/-! SUPPORT. Powers of 2, the logarithm, the absolute value and the nearest integer of chapter 2. -/

namespace Sys2Proof.Machine

/-! ### Powers of 2 -/

theorem pow2_natCast (n : Nat) : pow2 n = ((2 ^ n : Nat) : Rat) := by
  rw [pow2, if_pos (Int.natCast_nonneg n), Int.toNat_natCast]

theorem pow2_neg_natCast (n : Nat) : pow2 (-n) = mkRat 1 (2 ^ n) := by
  cases n with
  | zero => rfl
  | succ n => rw [pow2, if_neg (by omega), Int.neg_neg, Int.toNat_natCast]

theorem pow2_zero : pow2 0 = 1 := rfl

theorem pow2_natCast_succ (n : Nat) : pow2 (n + 1 : Nat) = 2 * pow2 n := by
  rw [pow2_natCast, pow2_natCast, Nat.pow_succ, Nat.mul_comm, Rat.natCast_mul, Rat.natCast_ofNat]

theorem natCast_two_pow_pos (n : Nat) : 0 < ((2 ^ n : Nat) : Rat) := Rat.natCast_pos.mpr (Nat.two_pow_pos n)

theorem pow2_neg_natCast_mul (n : Nat) : pow2 (-n) * pow2 n = 1 := by
  rw [pow2_neg_natCast, pow2_natCast, Rat.mkRat_eq_div]
  exact Rat.div_mul_cancel (Rat.ne_of_gt (natCast_two_pow_pos n))

theorem pow2_succ (e : Int) : pow2 (e + 1) = 2 * pow2 e := by
  cases e with
  | ofNat n => exact pow2_natCast_succ n
  | negSucc n =>
    have hlo := pow2_neg_natCast_mul (n + 1)
    have hhi := pow2_neg_natCast_mul n
    have hstep := pow2_natCast_succ n
    rw [show Int.negSucc n + 1 = -(n : Int) by omega, show Int.negSucc n = -((n + 1 : Nat) : Int) from rfl]
    grind

theorem pow2_add_natCast (e : Int) (n : Nat) : pow2 (e + n) = pow2 e * pow2 n := by
  induction n with
  | zero => simp [pow2_zero]
  | succ n ih =>
    rw [show e + ((n + 1 : Nat) : Int) = e + n + 1 by omega, pow2_succ, ih, pow2_natCast_succ]
    grind

theorem pow2_add (a b : Int) : pow2 (a + b) = pow2 a * pow2 b := by
  rcases Int.eq_nat_or_neg b with ⟨n, rfl | rfl⟩
  · exact pow2_add_natCast a n
  · have hsum := pow2_add_natCast (a + -n) n
    have hinv := pow2_neg_natCast_mul n
    rw [Int.neg_add_cancel_right] at hsum
    grind

theorem pow2_mul_neg (e : Int) : pow2 e * pow2 (-e) = 1 := by
  rw [← pow2_add, Int.add_right_neg, pow2_zero]

theorem pow2_pos (e : Int) : 0 < pow2 e := by
  rcases Int.eq_nat_or_neg e with ⟨n, rfl | rfl⟩
  · rw [pow2_natCast]
    exact natCast_two_pow_pos n
  · have hpos := natCast_two_pow_pos n
    rw [← pow2_natCast] at hpos
    rw [← Rat.mul_pos_iff_of_pos_right hpos, pow2_neg_natCast_mul]
    decide

theorem div_pow2 (a : Rat) (e : Int) : a / pow2 e = a * pow2 (-e) := by
  have hinv := pow2_mul_neg e
  have hpos := pow2_pos e
  grind

theorem pow2_le_of_le {a b : Int} (h : a ≤ b) : pow2 a ≤ pow2 b := by
  obtain ⟨n, rfl⟩ := Int.le.dest h
  induction n with
  | zero => simp
  | succ n ih =>
    have hpos := pow2_pos (a + n)
    have hle := ih (by omega)
    rw [show a + ((n + 1 : Nat) : Int) = a + n + 1 by omega, pow2_succ]
    grind

/-! ### The logarithm of a positive rational -/

/-- Numerator and denominator within their powers of 2 leave two candidates for the logarithm; the comparison picks one. -/
theorem floorLog2_spec {q : Rat} (hq : 0 < q) : pow2 (floorLog2 q) ≤ q ∧ q < pow2 (floorLog2 q + 1) := by
  have hn0 : q.num.natAbs ≠ 0 := by
    have := (Rat.num_nonneg.mpr (Rat.le_of_lt hq))
    have := mt Rat.num_eq_zero.mp (Rat.ne_of_gt hq)
    omega
  have hmul : q * (q.den : Rat) = (q.num.natAbs : Rat) := by
    have hcast : (q.num.natAbs : Rat) = (q.num : Rat) := by
      rw [← Rat.intCast_natCast, Int.natAbs_of_nonneg (Rat.num_nonneg.mpr (Rat.le_of_lt hq))]
    have hself : q = (q.num : Rat) / (q.den : Rat) := by rw [← Rat.mkRat_eq_div, Rat.mkRat_self]
    rw [hcast]
    conv => lhs; lhs; rw [hself]
    exact Rat.div_mul_cancel (Rat.ne_of_gt (Rat.natCast_pos.mpr q.den_pos))
  have hnlo := Rat.natCast_le_natCast.mpr (Nat.log2_self_le hn0)
  have hnhi := Rat.natCast_lt_natCast.mpr (Nat.lt_log2_self (n := q.num.natAbs))
  have hdlo := Rat.natCast_le_natCast.mpr (Nat.log2_self_le q.den_nz)
  have hdhi := Rat.natCast_lt_natCast.mpr (Nat.lt_log2_self (n := q.den))
  simp only [← pow2_natCast, ← hmul] at hnlo hnhi hdlo hdhi
  simp only [floorLog2]
  generalize Nat.log2 q.num.natAbs = a at *
  generalize Nat.log2 q.den = b at *
  have hlo : pow2 ((a : Int) - b - 1) ≤ q := by
    apply Rat.le_of_mul_le_mul_right _ (pow2_pos ((b + 1 : Nat) : Int))
    rw [← pow2_add, show (a : Int) - b - 1 + ((b + 1 : Nat) : Int) = a by omega]
    exact Rat.le_trans hnlo (Rat.mul_le_mul_of_nonneg_left (Rat.le_of_lt hdhi) (Rat.le_of_lt hq))
  have hhi : q < pow2 ((a : Int) - b + 1) := by
    apply Rat.lt_of_mul_lt_mul_right _ (Rat.le_of_lt (pow2_pos b))
    rw [← pow2_add, show (a : Int) - b + 1 + b = ((a + 1 : Nat) : Int) by omega]
    have := Rat.mul_le_mul_of_nonneg_left hdlo (Rat.le_of_lt hq)
    grind
  split
  · next h => exact ⟨h, hhi⟩
  · next h =>
    rw [Int.sub_add_cancel]
    exact ⟨hlo, Rat.not_le.mp h⟩

theorem le_of_pow2_between {d e : Int} {q : Rat} (hd : pow2 d ≤ q) (he : q < pow2 (e + 1)) : d ≤ e := by
  rcases Int.lt_or_le e d with h | h
  · have := pow2_le_of_le (show e + 1 ≤ d by omega)
    grind
  · exact h

theorem floorLog2_eq {e : Int} {q : Rat} (hlo : pow2 e ≤ q) (hhi : q < pow2 (e + 1)) : floorLog2 q = e := by
  have hpos := pow2_pos e
  obtain ⟨hlo', hhi'⟩ := floorLog2_spec (q := q) (by grind)
  exact Int.le_antisymm (le_of_pow2_between hlo' hhi) (le_of_pow2_between hlo hhi')

theorem floorLog2_le {a b : Rat} (ha : 0 < a) (h : a ≤ b) : floorLog2 a ≤ floorLog2 b := by
  have hb := floorLog2_spec (q := b) (by grind)
  exact le_of_pow2_between (Rat.le_trans (floorLog2_spec ha).1 h) hb.2

/-! ### Absolute value and nearest integer -/

theorem ratAbs_of_pos {q : Rat} (hq : 0 < q) : ratAbs q = q := by
  rw [ratAbs, if_neg (by grind)]

theorem ratAbs_neg_of_pos {q : Rat} (hq : 0 < q) : ratAbs (-q) = q := by
  rw [ratAbs, if_pos (by grind), Rat.neg_neg]

/-- Rounding up happens above the floor only. -/
theorem rne_cases (x : Rat) : rne x = x.floor ∨ (rne x = x.floor + 1 ∧ (x.floor : Rat) < x) := by
  have hhalf : mkRat 1 2 = (1 / 2 : Rat) := Rat.mkRat_eq_div 1 2
  simp only [rne, hhalf]
  split
  · exact .inl rfl
  · split
    · exact .inr ⟨rfl, by grind⟩
    · split
      · exact .inl rfl
      · exact .inr ⟨rfl, by grind⟩

theorem le_rne {z : Int} {x : Rat} (h : (z : Rat) ≤ x) : z ≤ rne x := by
  have hfloor := Rat.le_floor_iff.mpr h
  rcases rne_cases x with hr | ⟨hr, -⟩ <;> omega

theorem rne_le {z : Int} {x : Rat} (h : x ≤ (z : Rat)) : rne x ≤ z := by
  have hfloor := Rat.floor_le x
  rcases rne_cases x with hr | ⟨hr, hlt⟩
  · rw [hr]
    exact Rat.intCast_le_intCast.mp (Rat.le_trans hfloor h)
  · have hlt' : x.floor < z := Rat.intCast_lt_intCast.mp (by grind)
    omega

theorem rne_natCast (v : Nat) : rne (v : Rat) = v := by
  have hcast : ((v : Int) : Rat) = (v : Rat) := Rat.intCast_natCast v
  exact Int.le_antisymm (rne_le (by simp only [hcast, Rat.le_refl])) (le_rne (by simp only [hcast, Rat.le_refl]))

end Sys2Proof.Machine
end

section
/-! SUPPORT. R32's string of a value: what it is, and that it grows with the value. -/

namespace Sys2Proof.Machine

/-! ### The string of R32 as a function of the value -/

/-- The part of R32's string below the sign that regime `k` with exponent and fraction `t` (`0 ≤ t < 4`, one exponent step is 1) spells,
as a binary fraction: ones ended by a zero for `0 ≤ k`, zeros ended by a one below it. -/
def regimeString (k : Int) (t : Rat) : Rat := if 0 ≤ k then 1 - (8 - t) * pow2 (-(k + 4)) else (4 + t) * pow2 (k - 3)

/-- That string for the value `pow2 E * (1 + g)` (R30: four exponents to a regime). -/
def stringAt (E : Int) (g : Rat) : Rat := regimeString (E / 4) ((E % 4 : Int) + g)

theorem regimeString_nonneg {k : Int} (hk : 0 ≤ k) (t : Rat) : regimeString k t = 1 - (8 - t) * pow2 (-(k + 4)) := if_pos hk

theorem regimeString_neg {k : Int} (hk : k < 0) (t : Rat) : regimeString k t = (4 + t) * pow2 (k - 3) := if_neg (by omega)

theorem pow2_two : pow2 2 = 4 := by decide
theorem pow2_three : pow2 3 = 8 := by decide

/-- R32's regime of `k + 1` ones and a zero, as a number. -/
theorem cast_regime_ones (k : Nat) (e : Int) :
    ((((2 : Int) ^ (k + 1) - 1) * 2 * 4 + e : Int) : Rat) = pow2 ((k : Int) + 4) - 8 + e := by
  have hpow : (((2 : Int) ^ (k + 1) : Int) : Rat) = pow2 ((k + 1 : Nat) : Int) := by
    rw [pow2_natCast, ← Rat.intCast_natCast, Int.natCast_pow]
    rfl
  have hadd := pow2_add ((k + 1 : Nat) : Int) 3
  rw [show ((k + 1 : Nat) : Int) + 3 = k + 4 by omega, pow2_three, ← hpow] at hadd
  rw [hadd, Rat.intCast_add, Rat.intCast_mul, Rat.intCast_mul, Rat.intCast_sub]
  simp only [Rat.intCast_ofNat]
  grind

theorem positString_eq_stringAt (n : Nat) (a : Rat) :
    positString n a = pow2 ((n : Int) - 1) * stringAt (floorLog2 a) (a / pow2 (floorLog2 a) - 1) := by
  have hdiv : (floorLog2 a).fdiv 4 = floorLog2 a / 4 := Int.fdiv_eq_ediv_of_nonneg _ (by decide)
  have hmod : floorLog2 a - 4 * (floorLog2 a / 4) = floorLog2 a % 4 := by omega
  simp only [positString, stringAt, hdiv, hmod]
  generalize floorLog2 a / 4 = k
  generalize a / pow2 (floorLog2 a) - 1 = g
  generalize floorLog2 a % 4 = e
  by_cases hk : 0 ≤ k
  · obtain ⟨j, rfl⟩ := Int.eq_ofNat_of_zero_le hk
    have hinv := pow2_mul_neg ((j : Int) + 4)
    rw [if_pos hk, if_pos hk, regimeString_nonneg hk, Int.toNat_natCast, cast_regime_ones,
      show (n : Int) - 1 - (j + 2 + 2) = n - 1 + -(j + 4) by omega, pow2_add ((n : Int) - 1)]
    grind
  · rw [if_neg hk, if_neg hk, regimeString_neg (by omega), show (n : Int) - 1 - (-k + 1 + 2) = n - 1 + (k - 3) by omega,
      pow2_add ((n : Int) - 1), Rat.intCast_add]
    grind

/-- The strings are laid without a gap: the end of one exponent's values is the beginning of the next one's. -/
theorem stringAt_one (E : Int) : stringAt E 1 = stringAt (E + 1) 0 := by
  unfold stringAt
  by_cases he : E % 4 = 3
  · rw [he, show (E + 1) / 4 = E / 4 + 1 by omega, show (E + 1) % 4 = 0 by omega]
    generalize E / 4 = k
    rcases Int.lt_trichotomy k (-1) with h | rfl | h
    · have hstep := pow2_succ (k - 3)
      rw [regimeString_neg (by omega), regimeString_neg (by omega), show k + 1 - 3 = k - 3 + 1 by omega]
      grind
    · decide +kernel
    · have hstep := pow2_succ (-(k + 1 + 4))
      rw [regimeString_nonneg (by omega), regimeString_nonneg (by omega), show -(k + 4) = -(k + 1 + 4) + 1 by omega]
      grind
  · rw [show (E + 1) / 4 = E / 4 by omega, show (E + 1) % 4 = E % 4 + 1 by omega, Rat.intCast_add]
    congr 1
    grind

theorem regimeString_lt (k : Int) {t u : Rat} (h : t < u) : regimeString k t < regimeString k u := by
  by_cases hk : 0 ≤ k
  · have := Rat.mul_lt_mul_of_pos_right h (pow2_pos (-(k + 4)))
    rw [regimeString_nonneg hk, regimeString_nonneg hk]
    grind
  · have := Rat.mul_lt_mul_of_pos_right h (pow2_pos (k - 3))
    rw [regimeString_neg (by omega), regimeString_neg (by omega)]
    grind

theorem stringAt_lt (E : Int) {g h : Rat} (hgh : g < h) : stringAt E g < stringAt E h :=
  regimeString_lt _ (Rat.add_lt_add_left.mpr hgh)

theorem stringAt_zero_le {D E : Int} (h : D ≤ E) : stringAt D 0 ≤ stringAt E 0 := by
  obtain ⟨n, rfl⟩ := Int.le.dest h
  induction n with
  | zero =>
    have hD : D + ((0 : Nat) : Int) = D := Int.add_zero D
    simp only [hD, Rat.le_refl]
  | succ n ih =>
    have hlt := stringAt_lt (D + n) (show (0 : Rat) < 1 by decide)
    rw [stringAt_one, show D + n + 1 = D + ((n + 1 : Nat) : Int) by omega] at hlt
    exact Rat.le_trans (ih (by omega)) (Rat.le_of_lt hlt)

/-- R32's string grows with the value. -/
theorem positString_lt (n : Nat) {a b : Rat} (ha : 0 < a) (h : a < b) : positString n a < positString n b := by
  obtain ⟨-, hahi⟩ := floorLog2_spec ha
  obtain ⟨hblo, -⟩ := floorLog2_spec (q := b) (by grind)
  have hE := floorLog2_le ha (Rat.le_of_lt h)
  rw [positString_eq_stringAt, positString_eq_stringAt]
  apply Rat.mul_lt_mul_of_pos_left _ (pow2_pos _)
  rw [div_pow2, div_pow2]
  by_cases heq : floorLog2 a = floorLog2 b
  · have := Rat.mul_lt_mul_of_pos_right h (pow2_pos (-floorLog2 b))
    rw [heq]
    exact stringAt_lt _ (by grind)
  · have ha1 : a * pow2 (-floorLog2 a) - 1 < 1 := by
      have hinv := pow2_mul_neg (floorLog2 a)
      have := Rat.mul_lt_mul_of_pos_right hahi (pow2_pos (-floorLog2 a))
      rw [pow2_succ] at this
      grind
    have hb0 : 0 ≤ b * pow2 (-floorLog2 b) - 1 := by
      have hinv := pow2_mul_neg (floorLog2 b)
      have := Rat.mul_le_mul_of_nonneg_right hblo (Rat.le_of_lt (pow2_pos (-floorLog2 b)))
      grind
    have hbelow := stringAt_lt (floorLog2 a) ha1
    have hnext := stringAt_zero_le (show floorLog2 a + 1 ≤ floorLog2 b by omega)
    have habove : stringAt (floorLog2 b) 0 ≤ stringAt (floorLog2 b) (b * pow2 (-floorLog2 b) - 1) := by
      rcases Rat.le_iff_lt_or_eq.mp hb0 with hb0 | hb0
      · exact Rat.le_of_lt (stringAt_lt _ hb0)
      · simp only [← hb0, Rat.le_refl]
    rw [stringAt_one] at hbelow
    grind

theorem positString_le_iff (n : Nat) {a b : Rat} (ha : 0 < a) (hb : 0 < b) : positString n a ≤ positString n b ↔ a ≤ b := by
  constructor
  · intro h
    rcases Rat.le_total (a := a) (b := b) with hab | hba
    · exact hab
    · have := mt (positString_lt n hb) (Rat.not_lt.mpr h)
      exact Rat.not_lt.mp this
  · intro h
    rcases Rat.le_iff_lt_or_eq.mp h with h | rfl
    · exact Rat.le_of_lt (positString_lt n ha h)
    · exact Rat.le_refl

theorem positString_inj (n : Nat) {a b : Rat} (ha : 0 < a) (hb : 0 < b) : positString n a = positString n b ↔ a = b := by
  rw [Rat.le_antisymm_iff, Rat.le_antisymm_iff, positString_le_iff n ha hb, positString_le_iff n hb ha]

theorem positString_widen (n d : Nat) (a : Rat) : positString (n + d) a = positString n a * ((2 ^ d : Nat) : Rat) := by
  rw [positString_eq_stringAt, positString_eq_stringAt, show ((n + d : Nat) : Int) - 1 = ((n : Int) - 1) + d by omega, pow2_add,
    pow2_natCast]
  grind

/-- The string of a value given by its regime, exponent and fraction. -/
theorem positString_of_fields (n : Nat) {k e : Int} {g : Rat} (he : 0 ≤ e) (he' : e < 4) (hg : 0 ≤ g) (hg' : g < 1) :
    positString n (pow2 (4 * k + e) * (1 + g)) = pow2 ((n : Int) - 1) * regimeString k (e + g) := by
  have hinv := pow2_mul_neg (4 * k + e)
  have hlo : pow2 (4 * k + e) ≤ pow2 (4 * k + e) * (1 + g) := by
    have := Rat.mul_nonneg (Rat.le_of_lt (pow2_pos (4 * k + e))) hg
    grind
  have hhi : pow2 (4 * k + e) * (1 + g) < pow2 (4 * k + e + 1) := by
    have := Rat.mul_lt_mul_of_pos_left hg' (pow2_pos (4 * k + e))
    rw [pow2_succ]
    grind
  have hfrac : pow2 (4 * k + e) * (1 + g) * pow2 (-(4 * k + e)) - 1 = g := by grind
  rw [positString_eq_stringAt, floorLog2_eq hlo hhi, div_pow2, hfrac, stringAt, show (4 * k + e) / 4 = k by omega,
    show (4 * k + e) % 4 = e by omega]

end Sys2Proof.Machine
end

section
/-! SUPPORT. R30's fields of a positive pattern, and that the pattern is the string of its own value. -/

namespace Sys2Proof.Machine

/-! ### The fields of a positive pattern (R30) -/

theorem bit_toNat (v i : Nat) : v / 2 ^ i % 2 = (bit v i).toNat := by
  unfold bit
  rcases Nat.mod_two_eq_zero_or_one (v / 2 ^ i) with h | h <;> simp [h]

theorem mod_two_pow_succ_eq_bit (v i : Nat) : v % 2 ^ (i + 1) = v % 2 ^ i + 2 ^ i * (bit v i).toNat := by
  rw [Nat.mod_pow_succ, bit_toNat]

theorem runLen_of_ne {v i : Nat} {first : Bool} (h : bit v i ≠ first) : runLen v first i = 0 := by
  cases i <;> simp [runLen, h]

theorem runLen_zero_of_eq {v : Nat} {first : Bool} (h : bit v 0 = first) : runLen v first 0 = 1 := by
  simp [runLen, h]

theorem runLen_succ_of_eq {v i : Nat} {first : Bool} (h : bit v (i + 1) = first) : runLen v first (i + 1) = runLen v first i + 1 := by
  simp [runLen, h]

theorem runLen_pos (v i : Nat) : 0 < runLen v (bit v i) i := by
  cases i with
  | zero => simp [runLen_zero_of_eq rfl]
  | succ i => simp [runLen_succ_of_eq rfl]

/-- What a run of `m` equal bits from bit `i` down spells: above the `i + 1 - m` bits that are left stand `m` ones or nothing, and the
bit after the run, where there is one, differs from the run's. -/
theorem runLen_spec (v : Nat) (first : Bool) (i : Nat) :
    runLen v first i ≤ i + 1
    ∧ v % 2 ^ (i + 1) = v % 2 ^ (i + 1 - runLen v first i)
        + first.toNat * (2 ^ (i + 1) - 2 ^ (i + 1 - runLen v first i))
    ∧ (runLen v first i ≤ i → bit v (i - runLen v first i) = !first) := by
  induction i with
  | zero =>
    by_cases h : bit v 0 = first
    · rw [runLen_zero_of_eq h, mod_two_pow_succ_eq_bit, h]
      exact ⟨Nat.le_refl _, by simp, by omega⟩
    · rw [runLen_of_ne h]
      exact ⟨Nat.zero_le _, by simp, fun _ => Bool.eq_not.mpr h⟩
  | succ i ih =>
    by_cases h : bit v (i + 1) = first
    · obtain ⟨hle, hval, hend⟩ := ih
      have hpow : 2 ^ (i + 1 - runLen v first i) ≤ 2 ^ (i + 1) := Nat.pow_le_pow_right (by decide) (Nat.sub_le _ _)
      rw [runLen_succ_of_eq h, mod_two_pow_succ_eq_bit, hval, h, Nat.add_sub_add_right]
      refine ⟨by omega, ?_, fun hlt => by simpa using hend (by omega)⟩
      cases first
      · simp
      · have htwice : 2 ^ (i + 1 + 1) = 2 ^ (i + 1) * 2 := Nat.pow_succ _ _
        rw [Bool.toNat_true, htwice]
        omega
    · rw [runLen_of_ne h]
      exact ⟨Nat.zero_le _, by simp, fun _ => Bool.eq_not.mpr h⟩

/-- The exponent that the `l` bits `r` after the regime spell; bits past the end read as 0. -/
def tailExp (l r : Nat) : Nat := if 2 ≤ l then r / 2 ^ (l - 2) else r * 2 ^ (2 - l)

/-- The fraction that the `l` bits `r` after the regime spell. -/
def tailFrac (l r : Nat) : Rat := mkRat (r % 2 ^ (l - 2) : Nat) (2 ^ (l - 2))

theorem tailExp_lt {l r : Nat} (h : r < 2 ^ l) : tailExp l r < 4 := by
  unfold tailExp
  split
  · next hl =>
    have hpow : 2 ^ (l - 2) * 2 ^ 2 = 2 ^ l := by rw [← Nat.pow_add, Nat.sub_add_cancel hl]
    rw [Nat.div_lt_iff_lt_mul (Nat.two_pow_pos _)]
    omega
  · next hl =>
    calc r * 2 ^ (2 - l) < 2 ^ l * 2 ^ (2 - l) := Nat.mul_lt_mul_of_pos_right h (Nat.two_pow_pos _)
      _ = 2 ^ 2 := by rw [← Nat.pow_add, Nat.add_sub_cancel' (by omega)]

theorem tailFrac_mul (l r : Nat) : tailFrac l r * ((2 ^ (l - 2) : Nat) : Rat) = ((r % 2 ^ (l - 2) : Nat) : Rat) := by
  rw [tailFrac, Rat.mkRat_eq_div, Rat.intCast_natCast]
  exact Rat.div_mul_cancel (Rat.ne_of_gt (natCast_two_pow_pos _))

theorem tailFrac_nonneg (l r : Nat) : 0 ≤ tailFrac l r := by
  apply Rat.le_of_mul_le_mul_right _ (natCast_two_pow_pos (l - 2))
  rw [tailFrac_mul, Rat.zero_mul]
  exact Rat.natCast_nonneg

theorem tailFrac_lt_one (l r : Nat) : tailFrac l r < 1 := by
  apply Rat.lt_of_mul_lt_mul_right _ (Rat.le_of_lt (natCast_two_pow_pos (l - 2)))
  rw [tailFrac_mul, Rat.one_mul]
  exact Rat.natCast_lt_natCast.mpr (Nat.mod_lt r (Nat.two_pow_pos _))

/-- Exponent and fraction together are the bits after the regime, read with two places before the point. -/
theorem tailExp_add_tailFrac (l r : Nat) : (tailExp l r : Rat) + tailFrac l r = 4 * (r : Rat) * pow2 (-l) := by
  have hfrac := tailFrac_mul l r
  have hinv := pow2_mul_neg l
  rw [pow2_natCast] at hinv
  unfold tailExp
  split
  · next hl =>
    obtain ⟨j, rfl⟩ := Nat.exists_eq_add_of_le' hl
    rw [Nat.add_sub_cancel] at hfrac ⊢
    have hr : (((r / 2 ^ j : Nat) * 2 ^ j + r % 2 ^ j : Nat) : Rat) = (r : Rat) := congrArg _ (Nat.div_add_mod' r (2 ^ j))
    rw [Rat.natCast_add, Rat.natCast_mul] at hr
    rw [Nat.pow_add, Rat.natCast_mul] at hinv
    grind
  · next hl =>
    have hzero : tailFrac l r = 0 := by
      rw [tailFrac, show l - 2 = 0 by omega, Nat.pow_zero, Nat.mod_one]
      exact Rat.zero_mkRat 1
    have hpow : ((2 ^ (2 - l) * 2 ^ l : Nat) : Rat) = ((2 ^ 2 : Nat) : Rat) := by rw [← Nat.pow_add, Nat.sub_add_cancel (by omega)]
    rw [Rat.natCast_mul] at hpow
    rw [hzero, Rat.natCast_mul]
    grind

/-- The length of the regime's run. -/
def regimeRun (n v : Nat) : Nat := runLen v (bit v (n - 2)) (n - 2)

/-- The regime. -/
def regimeOf (n v : Nat) : Int := if bit v (n - 2) then (regimeRun n v : Int) - 1 else -(regimeRun n v : Int)

/-- How many bits stand after the bit that ends the regime. -/
def tailLen (n v : Nat) : Nat := n - 2 - regimeRun n v

/-- The bits after the regime. -/
def tailBits (n v : Nat) : Nat := v % 2 ^ tailLen n v

/-- R30 by the fields of the pattern. -/
theorem positMag_eq (n v : Nat) :
    positMag n v
      = pow2 (4 * regimeOf n v + (tailExp (tailLen n v) (tailBits n v) : Int)) * (1 + tailFrac (tailLen n v) (tailBits n v)) := rfl

theorem positMag_pos (n v : Nat) : 0 < positMag n v := by
  have hfrac := tailFrac_nonneg (tailLen n v) (tailBits n v)
  rw [positMag_eq]
  exact Rat.mul_pos (pow2_pos _) (by grind)

/-- Above the `l` bits `r` stand `m` zeros and a one. -/
theorem regimeString_of_zeros {m l : Nat} (r : Rat) (hm : 0 < m) :
    pow2 ((l : Int) + m + 1) * regimeString (-(m : Int)) (4 * r * pow2 (-l)) = r + pow2 l := by
  have hsplit := pow2_add ((l : Int) + m + 1) (-(m : Int) - 3)
  have hquarter := pow2_add ((l : Int) - 2) 2
  have hinv := pow2_mul_neg l
  rw [show (l : Int) + m + 1 + (-(m : Int) - 3) = l - 2 by omega] at hsplit
  rw [Int.sub_add_cancel, pow2_two] at hquarter
  rw [regimeString_neg (by omega)]
  grind

/-- Above the `l` bits `r` stand `m` ones and a zero. -/
theorem regimeString_of_ones {m l : Nat} (r : Rat) (hm : 0 < m) :
    pow2 ((l : Int) + m + 1) * regimeString ((m : Int) - 1) (4 * r * pow2 (-l)) = r + pow2 ((l : Int) + m + 1) - pow2 ((l : Int) + 1) := by
  have hsplit := pow2_add ((l : Int) + m + 1) (-((m : Int) - 1 + 4))
  have hquarter := pow2_add ((l : Int) - 2) 2
  have hinv := pow2_mul_neg l
  have hsucc := pow2_succ l
  rw [show (l : Int) + m + 1 + -((m : Int) - 1 + 4) = l - 2 by omega] at hsplit
  rw [Int.sub_add_cancel, pow2_two] at hquarter
  rw [regimeString_nonneg (by omega)]
  grind

/-- Ones to the end of the pattern, `i + 1` of them, are regime `i`. -/
theorem regimeString_of_all_ones (i : Nat) : pow2 ((i : Int) + 1) * regimeString i 0 = ((2 ^ (i + 1) - 1 : Nat) : Rat) := by
  have hsplit := pow2_add ((i : Int) + 1) (-((i : Int) + 4))
  have hinv : pow2 (-3) * 8 = 1 := by decide +kernel
  have hsub : ((2 ^ (i + 1) - 1 + 1 : Nat) : Rat) = pow2 ((i + 1 : Nat) : Int) := by
    rw [pow2_natCast, Nat.sub_add_cancel Nat.one_le_two_pow]
  rw [show (i : Int) + 1 + -((i : Int) + 4) = -3 by omega] at hsplit
  rw [Rat.natCast_add, Int.natCast_add] at hsub
  rw [regimeString_nonneg (by omega)]
  simp only [Int.cast_ofNat_Int, Rat.natCast_ofNat] at hsub
  grind

/-- A pattern is the string of its own fields. -/
theorem regimeString_of_pattern {n v : Nat} (hn : 2 ≤ n) (hv : 0 < v) (hv' : v < 2 ^ (n - 1)) :
    pow2 ((n : Int) - 1) * regimeString (regimeOf n v) (4 * (tailBits n v : Rat) * pow2 (-(tailLen n v))) = v := by
  obtain ⟨i, rfl⟩ := Nat.exists_eq_add_of_le' hn
  rw [show i + 2 - 1 = i + 1 by omega] at hv'
  unfold tailBits tailLen regimeOf regimeRun
  rw [Nat.add_sub_cancel]
  have hm := runLen_pos v i
  obtain ⟨hle, hval, hend⟩ := runLen_spec v (bit v i) i
  rw [Nat.mod_eq_of_lt hv'] at hval
  generalize bit v i = first at hm hle hval hend ⊢
  generalize runLen v first i = m at hm hle hval hend ⊢
  rcases Nat.lt_or_eq_of_le hle with hlt | rfl
  · obtain ⟨l, rfl⟩ := Nat.exists_eq_add_of_le' (show m ≤ i by omega)
    have hbit : bit v l = !first := by simpa using hend (by omega)
    rw [show l + m + 1 - m = l + 1 by omega, mod_two_pow_succ_eq_bit, hbit] at hval
    rw [Nat.add_sub_cancel, show ((l + m + 2 : Nat) : Int) - 1 = l + m + 1 by omega]
    cases first
    · have hcast : (v : Rat) = ((v % 2 ^ l + 2 ^ l : Nat) : Rat) := congrArg _ (by simpa using hval)
      rw [if_neg Bool.false_ne_true, regimeString_of_zeros _ hm, hcast, Rat.natCast_add, pow2_natCast]
    · have hpow : 2 ^ (l + 1) ≤ 2 ^ (l + m + 1) := Nat.pow_le_pow_right (by decide) (by omega)
      have hval' : v + 2 ^ (l + 1) = v % 2 ^ l + 2 ^ (l + m + 1) := by
        simp only [Bool.not_true, Bool.toNat_false, Bool.toNat_true] at hval
        omega
      have hcast : ((v + 2 ^ (l + 1) : Nat) : Rat) = ((v % 2 ^ l + 2 ^ (l + m + 1) : Nat) : Rat) := congrArg _ hval'
      rw [Rat.natCast_add, Rat.natCast_add, ← pow2_natCast, ← pow2_natCast] at hcast
      rw [if_pos rfl, regimeString_of_ones _ hm]
      simp only [Int.natCast_add, Int.cast_ofNat_Int] at hcast
      grind
  · cases first
    · simp [Nat.mod_one] at hval
      omega
    · have hones : v = 2 ^ (i + 1) - 1 := by simpa [Nat.mod_one] using hval
      have hall := regimeString_of_all_ones i
      rw [← hones, show (i : Int) + 1 = ((i + 2 : Nat) : Int) - 1 by omega] at hall
      simpa [Nat.mod_one] using hall

/-- The string of a pattern's value is the pattern. -/
theorem positString_positMag {n v : Nat} (hn : 2 ≤ n) (hv : 0 < v) (hv' : v < 2 ^ (n - 1)) : positString n (positMag n v) = v := by
  have hexp : tailExp (tailLen n v) (tailBits n v) < 4 := tailExp_lt (Nat.mod_lt v (Nat.two_pow_pos _))
  rw [positMag_eq, positString_of_fields n (Int.natCast_nonneg _) (by omega) (tailFrac_nonneg _ _) (tailFrac_lt_one _ _),
    Rat.intCast_natCast, tailExp_add_tailFrac, regimeString_of_pattern hn hv hv']

end Sys2Proof.Machine
end

section
/-! SUPPORT. Rounding and decoding in one posit format and in a wider one (R29 to R33). -/

namespace Sys2Proof.Machine

/-! ### The range of a format (R29) and the rounding within it (R32) -/

theorem minpos_pos (n : Nat) : 0 < minpos n := pow2_pos _

theorem maxpos_pos (n : Nat) : 0 < maxpos n := pow2_pos _

/-- The first value of a regime. -/
theorem positString_regime (n : Nat) (k : Int) : positString n (pow2 (4 * k)) = pow2 ((n : Int) - 1) * regimeString k 0 := by
  have h := positString_of_fields n (k := k) (e := 0) (g := 0) (by decide) (by decide) (by decide) (by decide)
  rwa [Int.add_zero, Rat.add_zero, Rat.mul_one, Rat.intCast_zero, Rat.add_zero] at h

theorem positString_minpos {n : Nat} (hn : 3 ≤ n) : positString n (minpos n) = ((1 : Nat) : Rat) := by
  have hsplit := pow2_add ((n : Int) - 1) (-((n : Int) - 2) - 3)
  have hquarter : pow2 (-2) * 4 = 1 := by decide +kernel
  rw [show (n : Int) - 1 + (-((n : Int) - 2) - 3) = -2 by omega] at hsplit
  rw [Rat.natCast_ofNat, minpos, show -(4 * ((n : Int) - 2)) = 4 * -((n : Int) - 2) by omega, positString_regime, regimeString_neg (by omega)]
  grind

theorem positString_maxpos {n : Nat} (hn : 2 ≤ n) : positString n (maxpos n) = ((2 ^ (n - 1) - 1 : Nat) : Rat) := by
  obtain ⟨i, rfl⟩ := Nat.exists_eq_add_of_le' hn
  rw [maxpos, positString_regime, show ((i + 2 : Nat) : Int) - 2 = i by omega, show ((i + 2 : Nat) : Int) - 1 = i + 1 by omega,
    regimeString_of_all_ones]
  rfl

theorem positMag_one {n : Nat} (hn : 3 ≤ n) : positMag n 1 = minpos n := by
  rw [← positString_inj n (positMag_pos n 1) (minpos_pos n), positString_minpos hn,
    positString_positMag (by omega) Nat.one_pos (Nat.one_lt_two_pow (by omega))]

theorem positMag_ones {n : Nat} (hn : 2 ≤ n) : positMag n (2 ^ (n - 1) - 1) = maxpos n := by
  have h1 : 1 < 2 ^ (n - 1) := Nat.one_lt_two_pow (by omega)
  rw [← positString_inj n (positMag_pos n _) (maxpos_pos n), positString_maxpos hn,
    positString_positMag hn (by omega) (by omega)]

theorem minpos_le_maxpos {n : Nat} (hn : 3 ≤ n) : minpos n ≤ maxpos n := by
  rw [← positString_le_iff n (minpos_pos n) (maxpos_pos n), positString_minpos hn, positString_maxpos (by omega)]
  have h1 : 1 < 2 ^ (n - 1) := Nat.one_lt_two_pow (by omega)
  exact Rat.natCast_le_natCast.mpr (Nat.le_sub_one_of_lt h1)

theorem positClamp_mem {n : Nat} (hn : 3 ≤ n) (a : Rat) : minpos n ≤ positClamp n a ∧ positClamp n a ≤ maxpos n := by
  have := minpos_le_maxpos hn
  unfold positClamp
  split
  · exact ⟨this, Rat.le_refl⟩
  · next h =>
    split
    · exact ⟨Rat.le_refl, this⟩
    · next h' => exact ⟨Rat.not_lt.mp h', Rat.not_lt.mp h⟩

theorem positClamp_of_mem {n : Nat} {a : Rat} (hlo : minpos n ≤ a) (hhi : a ≤ maxpos n) : positClamp n a = a := by
  rw [positClamp, if_neg (Rat.not_lt.mpr hhi), if_neg (Rat.not_lt.mpr hlo)]

/-- The kept bits of R32 are never 0 and never reach the sign bit. -/
theorem kept_mem {n : Nat} (hn : 3 ≤ n) (a : Rat) :
    0 < (rne (positString n (positClamp n a))).toNat ∧ (rne (positString n (positClamp n a))).toNat < 2 ^ (n - 1) := by
  obtain ⟨hlo, hhi⟩ := positClamp_mem hn a
  have hmin := minpos_pos n
  have hpos : 0 < positClamp n a := by grind
  have h1 : 1 < 2 ^ (n - 1) := Nat.one_lt_two_pow (by omega)
  rw [← positString_le_iff n (minpos_pos n) hpos, positString_minpos hn] at hlo
  rw [← positString_le_iff n hpos (maxpos_pos n), positString_maxpos (by omega)] at hhi
  have hge : (1 : Int) ≤ rne (positString n (positClamp n a)) := le_rne hlo
  have hle : rne (positString n (positClamp n a)) ≤ ((2 ^ (n - 1) - 1 : Nat) : Int) := rne_le hhi
  omega

theorem positSigned_false (n kept : Nat) : positSigned n false kept = kept := rfl

theorem positSigned_true {n kept : Nat} (hk : 0 < kept) : positSigned n true kept = 2 ^ n - kept := by
  rw [positSigned, if_pos rfl, Nat.mod_eq_of_lt (Nat.sub_lt (Nat.two_pow_pos n) hk)]

/-- A nonzero value rounds to a pattern that is neither zero nor NaR (R32). -/
theorem positRound_real {n : Nat} (hn : 3 ≤ n) {q : Rat} (hq : q ≠ 0) :
    positRound n q < 2 ^ n ∧ positRound n q ≠ 0 ∧ positRound n q ≠ 2 ^ (n - 1) := by
  obtain ⟨hpos, hlt⟩ := kept_mem hn (ratAbs q)
  have htwice := Nat.two_pow_pred_add_two_pow_pred (w := n) (by omega)
  rw [positRound, if_neg hq]
  generalize (rne (positString n (positClamp n (ratAbs q)))).toNat = kept at hpos hlt ⊢
  by_cases hneg : q < 0
  · rw [decide_eq_true hneg, positSigned_true hpos]
    omega
  · rw [decide_eq_false hneg, positSigned_false]
    omega

/-! ### Decoding and rounding again -/

theorem kept_positMag {n v : Nat} (hn : 3 ≤ n) (hv : 0 < v) (hv' : v < 2 ^ (n - 1)) :
    rne (positString n (positClamp n (positMag n v))) = v := by
  have hstr := positString_positMag (by omega) hv hv'
  have hmag := positMag_pos n v
  have hlo : minpos n ≤ positMag n v := by
    rw [← positString_le_iff n (minpos_pos n) hmag, positString_minpos hn, hstr]
    exact Rat.natCast_le_natCast.mpr hv
  have hhi : positMag n v ≤ maxpos n := by
    rw [← positString_le_iff n hmag (maxpos_pos n), positString_maxpos (by omega), hstr]
    exact Rat.natCast_le_natCast.mpr (Nat.le_sub_one_of_lt hv')
  rw [positClamp_of_mem hlo hhi, hstr, rne_natCast]

theorem positRound_positMag {n v : Nat} (hn : 3 ≤ n) (hv : 0 < v) (hv' : v < 2 ^ (n - 1)) : positRound n (positMag n v) = v := by
  have hmag := positMag_pos n v
  rw [positRound, if_neg (Rat.ne_of_gt hmag), decide_eq_false (Rat.not_lt.mpr (Rat.le_of_lt hmag)), ratAbs_of_pos hmag,
    kept_positMag hn hv hv',
    positSigned_false, Int.toNat_natCast]

theorem positRound_neg_positMag {n v : Nat} (hn : 3 ≤ n) (hv : 0 < v) (hv' : v < 2 ^ (n - 1)) :
    positRound n (-positMag n v) = 2 ^ n - v := by
  have hmag := positMag_pos n v
  have hneg : -positMag n v < 0 := by grind
  rw [positRound, if_neg (Rat.ne_of_lt hneg), decide_eq_true hneg, ratAbs_neg_of_pos hmag,
    kept_positMag hn hv hv', Int.toNat_natCast, positSigned_true hv]

@[simp] theorem positDecode_zero (n : Nat) : positDecode n 0 = .fin 0 := by
  simp [positDecode]

theorem positDecode_nar {n : Nat} (hn : 1 ≤ n) : positDecode n (2 ^ (n - 1)) = .nar := by
  have hlt : 2 ^ (n - 1) < 2 ^ n := Nat.pow_lt_pow_right (by decide) (by omega)
  simp only [positDecode, Nat.mod_eq_of_lt hlt]
  simp

theorem positDecode_pos {n v : Nat} (hv : 0 < v) (hv' : v < 2 ^ (n - 1)) : positDecode n v = .fin (positMag n v) := by
  have hlt : v < 2 ^ n := Nat.lt_of_lt_of_le hv' (Nat.pow_le_pow_right (by decide) (Nat.sub_le _ _))
  have hbit : bit v (n - 1) = false := by simp [bit, Nat.div_eq_of_lt hv']
  simp only [positDecode, Nat.mod_eq_of_lt hlt, if_neg (Nat.ne_of_gt hv), if_neg (Nat.ne_of_lt hv'), hbit]
  rfl

theorem positDecode_neg {n v : Nat} (hn : 1 ≤ n) (hv : 0 < v) (hv' : v < 2 ^ (n - 1)) :
    positDecode n (2 ^ n - v) = .fin (-positMag n v) := by
  have htwice := Nat.two_pow_pred_add_two_pow_pred hn
  have hbit : bit (2 ^ n - v) (n - 1) = true := by
    have hdiv : (2 ^ n - v) / 2 ^ (n - 1) = 1 := by
      rw [Nat.div_eq_iff (Nat.two_pow_pos _)]
      omega
    simp [bit, hdiv]
  rw [positDecode, Nat.mod_eq_of_lt (by omega)]
  simp only [if_neg (show 2 ^ n - v ≠ 0 by omega), if_neg (show 2 ^ n - v ≠ 2 ^ (n - 1) by omega), if_pos hbit,
    Nat.sub_sub_self (show v ≤ 2 ^ n by omega)]

/-- Zero, NaR, a positive pattern or the complement of one. -/
theorem pattern_cases {n p : Nat} (hn : 1 ≤ n) (hp : p < 2 ^ n) :
    p = 0 ∨ p = 2 ^ (n - 1) ∨ (0 < p ∧ p < 2 ^ (n - 1)) ∨ ∃ v, 0 < v ∧ v < 2 ^ (n - 1) ∧ p = 2 ^ n - v := by
  have htwice := Nat.two_pow_pred_add_two_pow_pred hn
  by_cases h : p ≤ 2 ^ (n - 1)
  · omega
  · exact .inr (.inr (.inr ⟨2 ^ n - p, by omega⟩))

/-- A pattern decoded and rounded in its own format comes back (R32). -/
theorem positEncode_positDecode {n p : Nat} (hn : 3 ≤ n) (hp : p < 2 ^ n) : positEncode n (positDecode n p) = p := by
  rcases pattern_cases (by omega) hp with rfl | rfl | ⟨hv, hv'⟩ | ⟨v, hv, hv', rfl⟩
  · simp [positEncode, positRound]
  · rw [positDecode_nar (by omega)]
    rfl
  · rw [positDecode_pos hv hv']
    exact positRound_positMag hn hv hv'
  · rw [positDecode_neg (by omega) hv hv']
    exact positRound_neg_positMag hn hv hv'

/-! ### Widening -/

theorem widened_lt {n d v : Nat} (hn : 1 ≤ n) (hv : v < 2 ^ (n - 1)) : v * 2 ^ d < 2 ^ (n + d - 1) := by
  rw [Nat.sub_add_comm hn, Nat.pow_add]
  exact Nat.mul_lt_mul_of_pos_right hv (Nat.two_pow_pos d)

theorem widened_pos {d v : Nat} (hv : 0 < v) : 0 < v * 2 ^ d := Nat.mul_pos hv (Nat.two_pow_pos d)

/-- `d` zeros below a positive pattern leave its value: both values have the same string in the wider format. -/
theorem positMag_widen {n v : Nat} (d : Nat) (hn : 2 ≤ n) (hv : 0 < v) (hv' : v < 2 ^ (n - 1)) :
    positMag (n + d) (v * 2 ^ d) = positMag n v := by
  rw [← positString_inj (n + d) (positMag_pos _ _) (positMag_pos _ _), positString_widen n d (positMag n v),
    positString_positMag hn hv hv', positString_positMag (by omega) (widened_pos hv) (widened_lt (by omega) hv'),
    Rat.natCast_mul]

/-- Widening is exact: the pattern with `d` zeros below it has the same value, or NaR (R33). -/
theorem positDecode_widen {n p : Nat} (d : Nat) (hn : 2 ≤ n) (hp : p < 2 ^ n) : positDecode (n + d) (p * 2 ^ d) = positDecode n p := by
  rcases pattern_cases (by omega) hp with rfl | rfl | ⟨hv, hv'⟩ | ⟨v, hv, hv', rfl⟩
  · simp
  · rw [← Nat.pow_add, ← Nat.sub_add_comm (by omega : 1 ≤ n), positDecode_nar (by omega), positDecode_nar (by omega)]
  · rw [positDecode_pos hv hv', positDecode_pos (widened_pos hv) (widened_lt (by omega) hv'), positMag_widen d hn hv hv']
  · rw [positDecode_neg (by omega) hv hv', Nat.sub_mul, ← Nat.pow_add,
      positDecode_neg (by omega) (widened_pos hv) (widened_lt (by omega) hv'), positMag_widen d hn hv hv']

theorem positEncode_widen {n p : Nat} (d : Nat) (hn : 3 ≤ n) (hp : p < 2 ^ n) :
    positEncode (n + d) (positDecode n p) = p * 2 ^ d := by
  have hlt : p * 2 ^ d < 2 ^ (n + d) := by
    rw [Nat.pow_add]
    exact Nat.mul_lt_mul_of_pos_right hp (Nat.two_pow_pos d)
  rw [← positDecode_widen d (by omega) hp, positEncode_positDecode (by omega) hlt]

/-- R33 for any two widths: the value survives widening, its pattern the round trip, and NaR stays NaR. -/
theorem widened_then_narrowed {n m : Nat} (hn : 3 ≤ n) (hm : n ≤ m) {p : Nat} (hp : p < 2 ^ n) :
    positDecode m (positEncode m (positDecode n p)) = positDecode n p
    ∧ positEncode n (positDecode m (positEncode m (positDecode n p))) = p := by
  obtain ⟨d, rfl⟩ := Nat.exists_eq_add_of_le hm
  rw [positEncode_widen d hn hp, positDecode_widen d (by omega) hp]
  exact ⟨rfl, positEncode_positDecode hn hp⟩

theorem positEncode_nar_of_width {n m : Nat} (hn : 1 ≤ n) : positEncode m (positDecode n (2 ^ (n - 1))) = 2 ^ (m - 1) := by
  rw [positDecode_nar hn]
  rfl

/-- The worked encodings of R33's table. -/
theorem worked_encodings : ∀ x ∈ ([(0, 0, 0, 0), (1, 0x40, 0x4000, 0x40000000), (-1, 0xC0, 0xC000, 0xC0000000),
      (3, 0x4C, 0x4C00, 0x4C000000), (1 / 16, 0x20, 0x2000, 0x20000000), (41 / 4, 0x5A, 0x5A40, 0x5A400000),
      (100, 0x6A, 0x6A40, 0x6A400000), (1 / 2 ^ 24, 0x01, 0x0100, 0x01000000)] : List (Rat × Nat × Nat × Nat)),
    positRound 8 x.1 = x.2.1 ∧ positRound 16 x.1 = x.2.2.1 ∧ positRound 32 x.1 = x.2.2.2 := by
  decide +kernel

/-- The ends of a format of `n` bits: its largest and least positive values, and NaR (R29, R31). -/
theorem positDecode_ends {n : Nat} (hn : 3 ≤ n) :
    positDecode n (2 ^ (n - 1) - 1) = .fin (maxpos n) ∧ positDecode n 1 = .fin (minpos n) ∧ positDecode n (2 ^ (n - 1)) = .nar := by
  have h1 : 1 < 2 ^ (n - 1) := Nat.one_lt_two_pow (by omega)
  rw [positDecode_pos (by omega) (by omega), positDecode_pos Nat.one_pos h1, positMag_ones (by omega), positMag_one hn]
  exact ⟨rfl, rfl, positDecode_nar (by omega)⟩

/-- Settles O46: a positive pattern is the string of R32 of its own value, and the string grows with the value; so zeros below a pattern
widen it, the kept bits come back, and no clamped value leaves the real patterns. -/
theorem positConversionsAreExact : Obligations.PositConversionsAreExact := by
  refine ⟨fun n m p h => ?_, fun q a b c h => worked_encodings _ h, fun n e h => ?_⟩
  · obtain ⟨hn, hm⟩ : 3 ≤ n ∧ n ≤ m := by
      simp only [List.mem_cons, Prod.mk.injEq, List.not_mem_nil, or_false] at h
      omega
    refine ⟨widened_then_narrowed hn hm, fun q hq => ?_, positEncode_nar_of_width (by omega), positEncode_nar_of_width (by omega)⟩
    rw [hq]
    rfl
  · obtain ⟨hn, he⟩ : 3 ≤ n ∧ e = 4 * (n - 2) := by
      simp only [List.mem_cons, Prod.mk.injEq, List.not_mem_nil, or_false] at h
      omega
    have hcast : (e : Int) = 4 * ((n : Int) - 2) := by omega
    have hmax : maxpos n = 2 ^ e := by rw [maxpos, ← hcast, pow2_natCast, Rat.natCast_pow, Rat.natCast_ofNat]
    have hmin : minpos n = 1 / 2 ^ e := by
      rw [minpos, ← hcast, pow2_neg_natCast, Rat.mkRat_eq_div, Rat.natCast_pow, Rat.natCast_ofNat, Rat.intCast_one]
    obtain ⟨hones, hone, hnar⟩ := positDecode_ends hn
    rw [← hmin, ← hmax]
    exact ⟨hones, hone, hnar, fun q hq => positRound_real hn hq⟩

end Sys2Proof.Machine
end

section
/-! SUPPORT. The conversion counters at a clear and at the boundary (R47, R48). -/

namespace Sys2Proof.Machine

/-! ### The counters of R47 under the renaming of events for an origin (R214) -/

theorem State.finishAll_cnt (l : List Ticket) (st : Status) (p : List Byte) (s : State) :
    (l.foldl (fun s t => s.finish t st p) s).cnt = s.cnt := by
  induction l generalizing s with
  | nil => rfl
  | cons t l ih => rw [List.foldl_cons, ih, State.finish_cnt]

theorem State.finishAll_faces (l : List Ticket) (st : Status) (p : List Byte) (s : State) :
    (l.foldl (fun s t => s.finish t st p) s).faces = s.faces := by
  induction l generalizing s with
  | nil => rfl
  | cons t l ih => rw [List.foldl_cons, ih, State.finish_faces]

theorem State.cancelLaunch_cnt (s : State) (cause : BitVec 4) (x : Nat) : (s.cancelLaunch cause x).cnt = s.cnt := by
  unfold State.cancelLaunch
  split
  · rw [State.finish_cnt]
  · rfl

theorem State.cancelLaunch_faces (s : State) (cause : BitVec 4) (x : Nat) : (s.cancelLaunch cause x).faces = s.faces := by
  unfold State.cancelLaunch
  split
  · rw [State.finish_faces]
  · rfl

theorem State.rename_cnt (s : State) (x : Nat) : (s.rename x).cnt = s.cnt := by
  simp only [State.rename]
  split
  · rw [State.cancelLaunch_cnt, State.finishAll_cnt]
  · rw [State.finishAll_cnt]

/-- A renaming moves the boundary at which a table swaps in; what a Face counted in the tick stays. -/
theorem State.rename_totals (s : State) (x : Nat) : (s.rename x).totals = s.totals := by
  simp only [State.rename, State.totals]
  split
  · rw [State.cancelLaunch_faces, State.finishAll_faces, List.foldl_map]
  · rw [State.finishAll_faces, List.foldl_map]

theorem State.rescheduled_cnt (s : State) : s.rescheduled.cnt = s.cnt := by
  unfold State.rescheduled
  split
  · rfl
  · exact State.rename_cnt s _

theorem State.rescheduled_totals (s : State) : s.rescheduled.totals = s.totals := by
  unfold State.rescheduled
  split
  · rfl
  · exact State.rename_totals s _

/-- Step 1 of the boundary: the counters receive the totals of the tick that ends (R47). -/
theorem State.enterTick_cnt (s : State) : s.enterTick.cnt = s.cnt.plus s.totals := by
  rw [← State.rescheduled_cnt s, ← State.rescheduled_totals s]
  rfl

/-! ### CONV_CNT_CTL (R48) -/

/-- Bit 0 of CONV_CNT_CTL at 0x0818 is its live field CLEAR; the write touches no locked or staged bit. -/
theorem State.csrDirect_convCntCtl (s : State) : s.csrDirect 0x0818 1 1 = s.clearConv := by
  have hbits : csrBits 0x0818 = csrBitsSingle 0x0818 := by decide
  simp only [State.csrDirect, hbits]
  rfl

theorem exec_convCntCtlClear (s : State) : exec .convCntCtlClear s = .next (s.live State.clearConv) := rfl

theorem State.live_of_hub {s : State} (hub : s.pwr.hub = true) (f : State → State) : s.live f = f s := by
  rw [State.live, if_pos hub]

theorem State.clearConv_totals (s : State) : s.clearConv.totals = s.totals := rfl

/-- Settles O32. The command is the live field's; what the boundary then adds to the cleared counters is the totals of the Faces, which
the clear left alone. -/
theorem conversionCountersClearAtOnce : Obligations.ConversionCountersClearAtOnce := by
  intro s hub
  refine ⟨s.csrDirect_convCntCtl, s.clearConv, ?_, rfl, rfl, rfl, rfl, rfl, rfl, rfl, ?_⟩
  · rw [exec_convCntCtlClear, State.live_of_hub hub]
  · rw [State.enterTick_cnt, State.clearConv_totals]
    exact ⟨rfl, rfl, rfl, rfl, rfl, rfl⟩

end Sys2Proof.Machine
end

section
/-! SUPPORT. Slips past STALL_LIMIT, the end of a stall, and ODC.PIT after a halt (R217, R225, R228). -/

namespace Sys2Proof.Machine

/-! ### A halt by notice (R220) -/

theorem State.schedHalt_halts {s : State} (can : s.canHalt = true) (target : Nat) (cause : BitVec 4) (remote : Bool) :
    (s.schedHalt target cause remote).sched.halts = s.sched.halts ++ [⟨target, cause, remote⟩] := by
  rw [State.schedHalt, if_pos can]

theorem State.mem_toPit_own {s : State} (others : 1 < s.pitSize) (kind : Byte) (l : Option Load) :
    s.class0 kind none l ∈ (s.toPit kind l).fab.own := by
  rw [State.toPit, if_pos others]
  simp

/-- What waits to be routed still waits after a message to the twin. -/
theorem State.mem_toTwin_own {s : State} {k : Packet} (h : k ∈ s.fab.own) (kind : Byte) (l : Load) : k ∈ (s.toTwin kind l).fab.own := by
  unfold State.toTwin
  split
  · rw [State.post_own]
    exact List.mem_append_left _ h
  · exact h

theorem State.mem_sendHaltNotice_own {s : State} (others : 1 < s.pitSize) (n : HaltNotice) :
    s.class0 0x10 none (some (.halt n)) ∈ (s.sendHaltNotice n).fab.own :=
  State.mem_toTwin_own (State.mem_toPit_own others _ _) _ _

/-- Sending the notice leaves what decides whether the Pit can halt. -/
theorem State.sendHaltNotice_canHalt (s : State) (n : HaltNotice) : (s.sendHaltNotice n).canHalt = s.canHalt := by
  simp [State.canHalt]

theorem State.noticeHalt_halts (s : State) (can : s.canHalt = true) (cause : BitVec 4) (remote : Bool) :
    (s.noticeHalt cause remote).sched.halts
      = s.sched.halts ++ [⟨s.tk.tickCount.toNat + s.tk.notice.toNat, cause, remote⟩] := by
  rw [State.noticeHalt, if_pos can, State.schedHalt_halts ((State.sendHaltNotice_canHalt ..).trans can), State.sendHaltNotice_sched]

theorem State.mem_noticeHalt_own (s : State) (can : s.canHalt = true) (others : 1 < s.pitSize) (cause : BitVec 4) (remote : Bool) :
    s.class0 0x10 none
        (some (.halt ⟨s.fab.faddr, cause, BitVec.ofNat 64 (s.tk.tickCount.toNat + s.tk.notice.toNat), false⟩))
      ∈ (s.noticeHalt cause remote).fab.own := by
  rw [State.noticeHalt, if_pos can, State.schedHalt_fab]
  exact State.mem_sendHaltNotice_own others _

/-! ### Error records (R333) -/

/-- The state with one more raised record and nothing else changed. -/
def State.withRaised (s : State) (e : ErrRec) : State := { s with errs := { s.errs with raised := s.errs.raised ++ [e] } }

/-- A fatal record for STALL_LIMIT or COLL_STALL is appended to the log, and the module halts by notice with cause 3. -/
theorem State.raise_eq_noticeHalt (s : State) {code : Nat} (hcode : code = 0x0402 ∨ code = 0x0405) (u : EUnit) (addr : Nat)
    (d : List Byte) :
    ∃ e, s.raise code u addr d = (s.withRaised e).noticeHalt 3 false ∧ e.code = code ∧ e.cls = 3 := by
  rcases hcode with rfl | rfl <;> exact ⟨_, rfl, rfl, rfl⟩

/-! ### FACE_SLIP_LIMIT (R225) -/

theorem State.pastLimit_iff (s : State) (x : Face) : s.pastLimit x = true ↔ x.running = true ∧ s.cfg.stallLimit.toNat < x.slip := by
  simp [State.pastLimit]

theorem exec_faceSlipLimit_of_pastLimit {s : State} {f : FaceId} (h : s.pastLimit (s.face f) = true) :
    exec (.faceSlipLimit f) s
      = .next ((s.raise 0x0402 (.face f.val) 0 (leBytes 4 ((s.face f).slip - 1))).updFace f s.giveUp) :=
  congrArg Host.Outcome.next (if_pos h)

theorem exec_faceSlipLimit_of_within {s : State} {f : FaceId} (h : ¬s.pastLimit (s.face f) = true) :
    exec (.faceSlipLimit f) s = .next s :=
  congrArg Host.Outcome.next (if_neg h)

/-- The record of a Face past the limit is fatal; with it go the notice to the other members and the halt NOTICE ticks ahead. -/
theorem State.raise_slipLimit (s : State) (u : EUnit) (addr : Nat) (d : List Byte) :
    (∃ e, (s.raise 0x0402 u addr d).errs.raised = s.errs.raised ++ [e] ∧ e.code = 0x0402 ∧ e.cls = 3)
    ∧ (s.canHalt = true →
      (s.raise 0x0402 u addr d).sched.halts = s.sched.halts ++ [⟨s.tk.tickCount.toNat + s.tk.notice.toNat, 3, false⟩]
      ∧ (1 < s.pitSize →
        s.class0 0x10 none (some (.halt ⟨s.fab.faddr, 3, BitVec.ofNat 64 (s.tk.tickCount.toNat + s.tk.notice.toNat), false⟩))
          ∈ (s.raise 0x0402 u addr d).fab.own)) := by
  obtain ⟨e, hraise, hcode, hcls⟩ := s.raise_eq_noticeHalt (.inl rfl) u addr d
  rw [hraise, State.noticeHalt_errs]
  exact ⟨⟨e, rfl, hcode, hcls⟩, fun can => ⟨State.noticeHalt_halts (s.withRaised e) can 3 false,
    fun others => State.mem_noticeHalt_own (s.withRaised e) can others 3 false⟩⟩

/-! ### FACE_STALL_END (R217) -/

theorem State.stallOver_iff (s : State) (f : FaceId) :
    s.stallOver f = true
      ↔ (s.face f).stall.isSome = true ∧ ∀ i ∈ (s.face f).held, s.missing f (readRanges f i) = none := by
  simp [State.stallOver]

theorem exec_faceStallEnd_of_over {s : State} {f : FaceId} (h : s.stallOver f = true) :
    exec (.faceStallEnd f) s
      = .next ((s.face f).held.foldl resumeOne (s.updFace f fun x => { x with stall := none, held := [] })) :=
  congrArg Host.Outcome.next (if_pos h)

theorem exec_faceStallEnd_of_waiting {s : State} {f : FaceId} (h : ¬s.stallOver f = true) : exec (.faceStallEnd f) s = .next s :=
  congrArg Host.Outcome.next (if_neg h)

/-! ### ODC_PIT_UPDATE (R228) -/

theorem exec_odcPitUpdate_of_due {s : State} (due : s.tk.odcDue = true) (others : List (BitVec 32)) :
    exec (.odcPitUpdate others) s = .next { s with tk := { s.tk with
      odcPit := satAdd 32 0 ((others.map BitVec.toNat).foldl (· + ·) s.tk.odcModule.toNat), odcDue := false } } :=
  congrArg Host.Outcome.next (if_pos due)

theorem exec_odcPitUpdate_of_not_due {s : State} (h : s.tk.odcDue = false) (others : List (BitVec 32)) :
    exec (.odcPitUpdate others) s = .next s :=
  congrArg Host.Outcome.next (if_neg (Bool.eq_false_iff.mp h))

/-- Settles O30. Each command acts under its one guard: the slip past the limit, nothing left to wait for, the sum due. The record's
halt is that of `State.raise_eq_noticeHalt`: the notice is sent from a state
that differs from `s` in the error log alone. -/
theorem slipsStallsAndDeviations : Obligations.SlipsStallsAndDeviations := by
  intro s f others
  refine ⟨fun running past => ?_, fun within => ?_, fun c stalled come => ?_, fun i held missing => ?_, fun free => ?_,
    fun due => exec_odcPitUpdate_of_due due others, fun notDue => exec_odcPitUpdate_of_not_due notDue others⟩
  · have hexec := exec_faceSlipLimit_of_pastLimit ((s.pastLimit_iff _).mpr ⟨running, past⟩)
    obtain ⟨⟨e, hraised, hcode, hcls⟩, hhalt⟩ := s.raise_slipLimit (.face f.val) 0 (leBytes 4 ((s.face f).slip - 1))
    exact ⟨hexec, _, e, hexec, hraised, hcode, hcls, hhalt⟩
  · refine exec_faceSlipLimit_of_within fun h => ?_
    obtain ⟨running, past⟩ := (s.pastLimit_iff _).mp h
    rcases within with idle | le
    · rw [idle] at running
      cases running
    · omega
  · exact exec_faceStallEnd_of_over ((s.stallOver_iff f).mpr ⟨by rw [stalled]; rfl, come⟩)
  · exact exec_faceStallEnd_of_waiting fun h => missing (((s.stallOver_iff f).mp h).2 i held)
  · refine exec_faceStallEnd_of_waiting fun h => ?_
    have hsome := ((s.stallOver_iff f).mp h).1
    rw [free] at hsome
    cases hsome

end Sys2Proof.Machine
end
